-- ==== Sys2Proof/Word.lean ====
section
/-! DEFINITION. The word types of the hardware (spec/00_scope.md section 6: every value is unsigned). -/

namespace Sys2Proof

/-- A byte: 8 bits, 0..255 (section 6). A character is a byte holding an ASCII code. -/
abbrev Byte := BitVec 8

/-- A nibble: 4 bits, 0..15 (section 6). -/
abbrev Nibble := BitVec 4

/-- `u16`: 16 bits (section 6). -/
abbrev U16 := BitVec 16

/-- A 12-bit length, `LENID` / `N` / `hexlen` (R77, R120). -/
abbrev Len12 := BitVec 12

/-- A position counter, 13 bits (R11). -/
abbrev Pos := BitVec 13

end Sys2Proof
end

