-- ==== Sys2Proof/Config.lean ====
section
/-! DEFINITION. What the spec fixes as constants (R5, R6), the buffer sizes (R7, R19), and the free values:
opaque constants with no body, so that nothing can be proved of the value one of them takes. -/

namespace Sys2Proof.Config

/-- `SOI`, the start marker `'~'` (R5). The ASCII code is marked PRESUMED in log 21 (spec G1). -/
def soi : Byte := 0x7E

/-- `EOI`, the terminator `'\r'` (R5); log 21. -/
def eoi : Byte := 0x0D

/-- `VERSION` (R5). -/
def version : Byte := 0x20

/-- `DEVICE_TYPE`, a configuration constant, 0x46 in this hardware (R6, D6; log 22). -/
def deviceType : Byte := 0x46

/-- `ADDR_MAX` (R5). -/
def addrMax : Nat := 15

/-- `MAX_HEXLEN` (R5). -/
def maxHexlen : Nat := 4095

/-- `OVERHEAD`, frame bytes other than payload (R5). -/
def overhead : Nat := 18

/-- `HEADER_REGION`, the byte count of the transaction's first read (R5). -/
def headerRegion : Nat := 18

/-- Size of `PBUF` (R7, R41). -/
def pbufSize : Nat := 2047

/-- Size of `RXBUF` (R7, R42). -/
def rxbufSize : Nat := 4113

/-- Size of `RPBUF` (R7, R43). -/
def rpbufSize : Nat := 2047

/-- FREE VALUE (log 11). The contents of byte `index` of a buffer that nothing has written since the reset
numbered `epoch`: R21 leaves it unspecified (`buffer` is 0 for `PBUF`, 1 for `RXBUF`, 2 for the stand-alone
decoder's `RPBUF`, 3 for the transaction's). -/
opaque unwrittenByte (buffer epoch index : Nat) : Byte

/-- FREE VALUE (log 12). What is in `ch.in` after a read answered `IoError`: R48 leaves it unspecified (U20). -/
opaque inputAfterIoError (draw : Nat) : List Byte

/-- FREE VALUE (log 13). Whether a `PBUF` write made while the buffer must be held takes effect: R266 "may or
may not appear" (U16). -/
opaque lateWriteLands (draw : Nat) : Bool

/-- FREE VALUE (log 13). The encoder's running sum after `PBUF` was written during emission: R266 "makes the
transmitted checksum unspecified" (U16). -/
opaque lateChecksum (draw : Nat) : U16

end Sys2Proof.Config
end

