-- ==== Sys2Proof/Machine/Hex.lean ====
section
/-! DEFINITION. hex_codec as pure functions (spec/41_hex_codec.md), and the notation's bit-field helpers. -/

namespace Sys2Proof.Machine

/-- `b[7:4]`. -/
def highNibble (b : Byte) : Nibble := b.extractLsb' 4 4

/-- `b[3:0]`. -/
def lowNibble (b : Byte) : Nibble := b.extractLsb' 0 4

/-- `{a, b}` of two nibbles (R82). -/
def joinNibbles (a b : Nibble) : Byte := (a.setWidth 8 <<< 4) ||| b.setWidth 8

/-- Shift a nibble into a 16-bit register at the bottom: `{r[11:0], v}` (R169, R172). -/
def shiftInNibble (r : U16) (v : Nibble) : U16 := (r <<< 4) ||| v.setWidth 16

/-- `encode_nibble` (R100, table R70). -/
def encodeNibble (n : Nibble) : Byte :=
  if n ≤ 9 then 0x30 + n.setWidth 8 else 0x37 + n.setWidth 8

/-- `encode_byte`: two characters, the high nibble first (R101). -/
def encodeByte (b : Byte) : List Byte :=
  [encodeNibble (highNibble b), encodeNibble (lowNibble b)]

/-- `encode_u16`: four characters, the most significant nibble first (R102). -/
def encodeU16 (v : U16) : List Byte :=
  [encodeNibble (v.extractLsb' 12 4), encodeNibble (v.extractLsb' 8 4),
   encodeNibble (v.extractLsb' 4 4), encodeNibble (v.extractLsb' 0 4)]

/-- `decode_nibble` (R103, table R71); `none` is `Err(InvalidHexDigit)`: a failed decode has no value (R107, D7). -/
def decodeNibble (c : Byte) : Option Nibble :=
  if 0x30 ≤ c ∧ c ≤ 0x39 then some ((c - 0x30).setWidth 4)
  else if 0x41 ≤ c ∧ c ≤ 0x46 then some ((c - 0x37).setWidth 4)
  else if 0x61 ≤ c ∧ c ≤ 0x66 then some ((c - 0x57).setWidth 4)
  else none

/-- `is_hex` (R9). -/
def isHex (c : Byte) : Bool := (decodeNibble c).isSome

/-- `decode_byte`: all or nothing (R104, R106, R107). -/
def decodeByte (c0 c1 : Byte) : Option Byte :=
  match decodeNibble c0, decodeNibble c1 with
  | some h, some l => some (joinNibbles h l)
  | _, _ => none

/-- `decode_u16`: all or nothing (R105, R106, R107). -/
def decodeU16 (c0 c1 c2 c3 : Byte) : Option U16 :=
  match decodeNibble c0, decodeNibble c1, decodeNibble c2, decodeNibble c3 with
  | some a, some b, some c, some d =>
    some ((a.setWidth 16 <<< 12) ||| (b.setWidth 16 <<< 8) ||| (c.setWidth 16 <<< 4) ||| d.setWidth 16)
  | _, _, _, _ => none

end Sys2Proof.Machine
end

