-- ==== Sys2Proof/Machine/Checksums.lean ====
section
/-! DEFINITION. The two checksums as pure functions (spec/42_checksums.md). -/

namespace Sys2Proof.Machine

/-- `LCHK` of a length word: bits 15..12 (R77). -/
def lchk (w : U16) : Nibble := w.extractLsb' 12 4

/-- `LENID` (`N`) of a length word: bits 11..0 (R77). -/
def lenid (w : U16) : Len12 := w.extractLsb' 0 12

/-- `length_checksum`: the low nibble of the two's complement, at 8 bits, of the nibble sum (R120). -/
def lengthChecksum (l : Len12) : Nibble :=
  let s : BitVec 8 := (l.extractLsb' 8 4).setWidth 8 + (l.extractLsb' 4 4).setWidth 8 + (l.extractLsb' 0 4).setWidth 8
  (-s).extractLsb' 0 4

/-- A length word from its two fields: `{k, l}` (R77). -/
def lengthWordOf (k : Nibble) (l : Len12) : U16 := (k.setWidth 16 <<< 12) ||| l.setWidth 16

/-- `length_field_build` (R121). -/
def lengthFieldBuild (l : Len12) : U16 := lengthWordOf (lengthChecksum l) l

/-- `length_field_check` (R122); `none` is `Err(LengthChecksumMismatch)`. It never corrects (R132). -/
def lengthFieldCheck (w : U16) : Option Len12 :=
  if lchk w = lengthChecksum (lenid w) then some (lenid w) else none

/-- `sum(bytes)`: the sum as an unbounded natural number (00_scope.md section 6). -/
def sumBytes (bytes : List Byte) : Nat := (bytes.map BitVec.toNat).sum

/-- `neg16` (00_scope.md section 6). -/
def neg16 (x : Nat) : U16 := BitVec.ofNat 16 ((65536 - x % 65536) % 65536)

/-- `frame_checksum` (R127). -/
def frameChecksum (bytes : List Byte) : U16 := neg16 (sumBytes bytes)

/-- `frame_checksum_verify`; `false` is `Err(ChecksumMismatch)` (R128). -/
def frameChecksumVerify (bytes : List Byte) (cRx : U16) : Bool := frameChecksum bytes == cRx

/-- Step `acc_add` on an accumulator: the carry out of bit 15 is dropped (R125). -/
def accAdd (acc : U16) (b : Byte) : U16 := acc + b.setWidth 16

/-- Step `acc_result`: `neg16(ACC)` (R126). -/
def accResult (acc : U16) : U16 := -acc

end Sys2Proof.Machine
end

