-- ==== Sys2Proof/Syntax.lean ====
section
/-! DEFINITION. The words of spec/opcode_table.json as one inductive, and the places such words stand in. -/

namespace Sys2Proof

/-- The nine error names (R230). -/
inductive ErrorName where
  | ioError
  | responseTimeout
  | invalidHexDigit
  | lengthChecksumMismatch
  | checksumMismatch
  | malformedFrame
  | invalidAddress
  | payloadTooLarge
  | truncatedFrame
  deriving DecidableEq, Repr

/-- The six transaction states (R11, R199). -/
inductive TState where
  | idle
  | sent
  | awaitingHeader
  | awaitingPayload
  | complete
  | failed
  deriving DecidableEq, Repr

/-- The nine fields of a frame (R74). -/
inductive Field where
  | soi | ver | adr | dev | fn | length | info | chksum | eoi
  deriving DecidableEq, Repr

/-- Where a word of the table stands: the six kinds of the table's `format` column (log 1). One bit pattern
means different things in different places (identifier 0x1 is `encode_nibble`, error code 0x1 is `IoError`). -/
inductive Place where
  /-- a 4-bit operation identifier (`op4`, R84) -/
  | operation
  /-- a hex character on a byte stream (`hexchar`, R70, R71) -/
  | character
  /-- a field of a frame, known by its offset (`frame_field`, R74) -/
  | field (f : Field)
  /-- the 16-bit length word (`u16`, R77) -/
  | lengthWord
  /-- a 4-bit error code (`err4`, R231) -/
  | errorCode
  /-- a 3-bit transaction state (`state3`, R199, R205) -/
  | stateCode
  deriving DecidableEq, Repr

/-- One word of spec/opcode_table.json, one constructor per row. Operations carry no operands: their operands
arrive on input ports (R10). Frame fields carry the characters as they stand on the wire, since the frame
checksum is over those (R79). -/
inductive Instr where
  /-- `encode_nibble`, R100 -/
  | encodeNibble
  /-- `encode_byte`, R101 -/
  | encodeByte
  /-- `encode_u16`, R102 -/
  | encodeU16
  /-- `decode_nibble`, R103 -/
  | decodeNibble
  /-- `decode_byte`, R104 -/
  | decodeByte
  /-- `decode_u16`, R105 -/
  | decodeU16
  /-- `length_checksum`, R120 -/
  | lengthChecksum
  /-- `length_field_build`, R121 -/
  | lengthFieldBuild
  /-- `length_field_check`, R122 -/
  | lengthFieldCheck
  /-- `frame_checksum`, R127 -/
  | frameChecksum
  /-- `frame_checksum_verify`, R128 -/
  | frameChecksumVerify
  /-- `Encode`, R140 -/
  | encode
  /-- `Decode`, R160 -/
  | decode
  /-- `execute`, R190 -/
  | execute
  /-- character `0`, R70, R71 -/
  | hexchar0
  /-- character `1`, R70, R71 -/
  | hexchar1
  /-- character `2`, R70, R71 -/
  | hexchar2
  /-- character `3`, R70, R71 -/
  | hexchar3
  /-- character `4`, R70, R71 -/
  | hexchar4
  /-- character `5`, R70, R71 -/
  | hexchar5
  /-- character `6`, R70, R71 -/
  | hexchar6
  /-- character `7`, R70, R71 -/
  | hexchar7
  /-- character `8`, R70, R71 -/
  | hexchar8
  /-- character `9`, R70, R71 -/
  | hexchar9
  /-- character `A`, R70, R71 -/
  | hexcharUpperA
  /-- character `B`, R70, R71 -/
  | hexcharUpperB
  /-- character `C`, R70, R71 -/
  | hexcharUpperC
  /-- character `D`, R70, R71 -/
  | hexcharUpperD
  /-- character `E`, R70, R71 -/
  | hexcharUpperE
  /-- character `F`, R70, R71 -/
  | hexcharUpperF
  /-- character `a`, R70, R71 -/
  | hexcharLowerA
  /-- character `b`, R70, R71 -/
  | hexcharLowerB
  /-- character `c`, R70, R71 -/
  | hexcharLowerC
  /-- character `d`, R70, R71 -/
  | hexcharLowerD
  /-- character `e`, R70, R71 -/
  | hexcharLowerE
  /-- character `f`, R70, R71 -/
  | hexcharLowerF
  /-- `SOI`, offset 0, R75 -/
  | frameSoi
  /-- `VER`, offsets 1..2, R76 -/
  | frameVer (c0 c1 : Byte)
  /-- `ADR`, offsets 3..4, R76 -/
  | frameAdr (c0 c1 : Byte)
  /-- `DEV`, offsets 5..6, R76 -/
  | frameDev (c0 c1 : Byte)
  /-- `FN`, offsets 7..8, R76 -/
  | frameFn (c0 c1 : Byte)
  /-- `LENGTH`, offsets 9..12, R77 -/
  | frameLength (c0 c1 c2 c3 : Byte)
  /-- `INFO`, offsets 13..12+N, R78 -/
  | frameInfo (chars : List Byte)
  /-- `CHKSUM`, offsets 13+N..16+N, R79 -/
  | frameChksum (c0 c1 c2 c3 : Byte)
  /-- `EOI`, offset 17+N, R75 -/
  | frameEoi
  /-- the length word, `k` = `LCHK`, `l` = `LENID`, R77 -/
  | lengthWord (k : Nibble) (l : Len12)
  /-- error code of `IoError`, R232 -/
  | errIoError
  /-- error code of `ResponseTimeout`, R233 -/
  | errResponseTimeout
  /-- error code of `InvalidHexDigit`, R234 -/
  | errInvalidHexDigit
  /-- error code of `LengthChecksumMismatch`, R235 -/
  | errLengthChecksumMismatch
  /-- error code of `ChecksumMismatch`, R236 -/
  | errChecksumMismatch
  /-- error code of `MalformedFrame`, R237 -/
  | errMalformedFrame
  /-- error code of `InvalidAddress`, R238 -/
  | errInvalidAddress
  /-- error code of `PayloadTooLarge`, R239 -/
  | errPayloadTooLarge
  /-- error code of `TruncatedFrame`, R240 -/
  | errTruncatedFrame
  /-- state code of `Idle`, R199 -/
  | tStateIdle
  /-- state code of `Sent`, R199 -/
  | tStateSent
  /-- state code of `AwaitingHeader`, R199 -/
  | tStateAwaitingHeader
  /-- state code of `AwaitingPayload`, R199 -/
  | tStateAwaitingPayload
  /-- state code of `Complete`, R199 -/
  | tStateComplete
  /-- state code of `Failed`, R199 -/
  | tStateFailed
  deriving DecidableEq, Repr

end Sys2Proof
end

