-- ==== Sys2Proof/Decode.lean ====
section
/-! DEFINITION. The decoder of the table's words (total, rejecting by name) and, after it, the encoder. A word is
a place and its bytes: an identifier or code of 3 or 4 bits stands in the low bits of one byte, and the bits above
it are no part of it (the table's masks; log 24); the length word stands in two bytes, the most significant first
(R50; log 24); a frame field is its wire bytes (R74). -/

namespace Sys2Proof

/-- Why bytes are no word of the table in their place. -/
inductive Reject where
  /-- operation identifiers 0x0 and 0xF (R84, U11) -/
  | reservedOperation
  /-- one of the 234 bytes outside the hex alphabet (R71) -/
  | notInAlphabet
  /-- a byte at a marker's place that is not the marker (R75) -/
  | notMarker
  /-- error code 0 ("none") or a reserved code 10..15 (R231, U12) -/
  | notAnErrorCode
  /-- state codes 6 and 7 (R205, U13) -/
  | reservedState
  /-- not the byte count of a word of this place -/
  | wrongLength
  deriving DecidableEq, Repr

/-- What the decoder answers. -/
inductive Decoded where
  | instr (i : Instr)
  | rejected (r : Reject)
  deriving DecidableEq, Repr

/-- The operation with identifier `op` (R84). -/
def decodeOperation (op : Nibble) : Decoded :=
  match op.toNat with
  | 1 => .instr .encodeNibble
  | 2 => .instr .encodeByte
  | 3 => .instr .encodeU16
  | 4 => .instr .decodeNibble
  | 5 => .instr .decodeByte
  | 6 => .instr .decodeU16
  | 7 => .instr .lengthChecksum
  | 8 => .instr .lengthFieldBuild
  | 9 => .instr .lengthFieldCheck
  | 10 => .instr .frameChecksum
  | 11 => .instr .frameChecksumVerify
  | 12 => .instr .encode
  | 13 => .instr .decode
  | 14 => .instr .execute
  | _ => .rejected .reservedOperation

/-- The hex character `c` (R71). -/
def decodeCharacter (c : Byte) : Decoded :=
  match c.toNat with
  | 0x30 => .instr .hexchar0
  | 0x31 => .instr .hexchar1
  | 0x32 => .instr .hexchar2
  | 0x33 => .instr .hexchar3
  | 0x34 => .instr .hexchar4
  | 0x35 => .instr .hexchar5
  | 0x36 => .instr .hexchar6
  | 0x37 => .instr .hexchar7
  | 0x38 => .instr .hexchar8
  | 0x39 => .instr .hexchar9
  | 0x41 => .instr .hexcharUpperA
  | 0x42 => .instr .hexcharUpperB
  | 0x43 => .instr .hexcharUpperC
  | 0x44 => .instr .hexcharUpperD
  | 0x45 => .instr .hexcharUpperE
  | 0x46 => .instr .hexcharUpperF
  | 0x61 => .instr .hexcharLowerA
  | 0x62 => .instr .hexcharLowerB
  | 0x63 => .instr .hexcharLowerC
  | 0x64 => .instr .hexcharLowerD
  | 0x65 => .instr .hexcharLowerE
  | 0x66 => .instr .hexcharLowerF
  | _ => .rejected .notInAlphabet

/-- The error with code `code` (R231). -/
def decodeErrorCode (code : Nibble) : Decoded :=
  match code.toNat with
  | 1 => .instr .errIoError
  | 2 => .instr .errResponseTimeout
  | 3 => .instr .errInvalidHexDigit
  | 4 => .instr .errLengthChecksumMismatch
  | 5 => .instr .errChecksumMismatch
  | 6 => .instr .errMalformedFrame
  | 7 => .instr .errInvalidAddress
  | 8 => .instr .errPayloadTooLarge
  | 9 => .instr .errTruncatedFrame
  | _ => .rejected .notAnErrorCode

/-- The transaction state with code `code` (R205). -/
def decodeStateCode (code : BitVec 3) : Decoded :=
  match code.toNat with
  | 0 => .instr .tStateIdle
  | 1 => .instr .tStateSent
  | 2 => .instr .tStateAwaitingHeader
  | 3 => .instr .tStateAwaitingPayload
  | 4 => .instr .tStateComplete
  | 5 => .instr .tStateFailed
  | _ => .rejected .reservedState

/-- A frame field from its wire bytes (R74 to R79). -/
def decodeField (f : Field) (bytes : List Byte) : Decoded :=
  match f, bytes with
  | .soi, [c] => if c = Config.soi then .instr .frameSoi else .rejected .notMarker
  | .ver, [c0, c1] => .instr (.frameVer c0 c1)
  | .adr, [c0, c1] => .instr (.frameAdr c0 c1)
  | .dev, [c0, c1] => .instr (.frameDev c0 c1)
  | .fn, [c0, c1] => .instr (.frameFn c0 c1)
  | .length, [c0, c1, c2, c3] => .instr (.frameLength c0 c1 c2 c3)
  | .info, chars => .instr (.frameInfo chars)
  | .chksum, [c0, c1, c2, c3] => .instr (.frameChksum c0 c1 c2 c3)
  | .eoi, [c] => if c = Config.eoi then .instr .frameEoi else .rejected .notMarker
  | _, _ => .rejected .wrongLength

/-- The decoder: the word that `bytes` are at `place`. -/
def decodeWord (place : Place) (bytes : List Byte) : Decoded :=
  match place, bytes with
  | .operation, [b] => decodeOperation (Machine.lowNibble b)
  | .character, [c] => decodeCharacter c
  | .field f, bs => decodeField f bs
  | .lengthWord, [hi, lo] => .instr (.lengthWord (Machine.highNibble hi) (Machine.lowNibble hi ++ lo))
  | .errorCode, [b] => decodeErrorCode (Machine.lowNibble b)
  | .stateCode, [b] => decodeStateCode (b.extractLsb' 0 3)
  | _, _ => .rejected .wrongLength

/-- The encoder: the place and bytes of a word, from the same tables. -/
def encodeWord : Instr → Place × List Byte
  | .encodeNibble => (.operation, [0x01])
  | .encodeByte => (.operation, [0x02])
  | .encodeU16 => (.operation, [0x03])
  | .decodeNibble => (.operation, [0x04])
  | .decodeByte => (.operation, [0x05])
  | .decodeU16 => (.operation, [0x06])
  | .lengthChecksum => (.operation, [0x07])
  | .lengthFieldBuild => (.operation, [0x08])
  | .lengthFieldCheck => (.operation, [0x09])
  | .frameChecksum => (.operation, [0x0A])
  | .frameChecksumVerify => (.operation, [0x0B])
  | .encode => (.operation, [0x0C])
  | .decode => (.operation, [0x0D])
  | .execute => (.operation, [0x0E])
  | .hexchar0 => (.character, [0x30])
  | .hexchar1 => (.character, [0x31])
  | .hexchar2 => (.character, [0x32])
  | .hexchar3 => (.character, [0x33])
  | .hexchar4 => (.character, [0x34])
  | .hexchar5 => (.character, [0x35])
  | .hexchar6 => (.character, [0x36])
  | .hexchar7 => (.character, [0x37])
  | .hexchar8 => (.character, [0x38])
  | .hexchar9 => (.character, [0x39])
  | .hexcharUpperA => (.character, [0x41])
  | .hexcharUpperB => (.character, [0x42])
  | .hexcharUpperC => (.character, [0x43])
  | .hexcharUpperD => (.character, [0x44])
  | .hexcharUpperE => (.character, [0x45])
  | .hexcharUpperF => (.character, [0x46])
  | .hexcharLowerA => (.character, [0x61])
  | .hexcharLowerB => (.character, [0x62])
  | .hexcharLowerC => (.character, [0x63])
  | .hexcharLowerD => (.character, [0x64])
  | .hexcharLowerE => (.character, [0x65])
  | .hexcharLowerF => (.character, [0x66])
  | .frameSoi => (.field .soi, [Config.soi])
  | .frameVer c0 c1 => (.field .ver, [c0, c1])
  | .frameAdr c0 c1 => (.field .adr, [c0, c1])
  | .frameDev c0 c1 => (.field .dev, [c0, c1])
  | .frameFn c0 c1 => (.field .fn, [c0, c1])
  | .frameLength c0 c1 c2 c3 => (.field .length, [c0, c1, c2, c3])
  | .frameInfo chars => (.field .info, chars)
  | .frameChksum c0 c1 c2 c3 => (.field .chksum, [c0, c1, c2, c3])
  | .frameEoi => (.field .eoi, [Config.eoi])
  | .lengthWord k l => (.lengthWord, [k ++ l.extractLsb' 8 4, l.extractLsb' 0 8])
  | .errIoError => (.errorCode, [0x01])
  | .errResponseTimeout => (.errorCode, [0x02])
  | .errInvalidHexDigit => (.errorCode, [0x03])
  | .errLengthChecksumMismatch => (.errorCode, [0x04])
  | .errChecksumMismatch => (.errorCode, [0x05])
  | .errMalformedFrame => (.errorCode, [0x06])
  | .errInvalidAddress => (.errorCode, [0x07])
  | .errPayloadTooLarge => (.errorCode, [0x08])
  | .errTruncatedFrame => (.errorCode, [0x09])
  | .tStateIdle => (.stateCode, [0x00])
  | .tStateSent => (.stateCode, [0x01])
  | .tStateAwaitingHeader => (.stateCode, [0x02])
  | .tStateAwaitingPayload => (.stateCode, [0x03])
  | .tStateComplete => (.stateCode, [0x04])
  | .tStateFailed => (.stateCode, [0x05])

/-- Where a bare word of `nbits` bits, numbered as the table numbers them, is taken to stand (log 2). The table's
kinds overlap and the word alone does not say which kind it is: 16 bits are the length word; a byte of the hex
alphabet is the character; 0x7E is the start marker; 0x00, no operation's identifier, is the state `Idle`; any
other byte is an operation identifier in its low four bits. -/
def tableWord (nbits w : Nat) : Place × List Byte :=
  let b : Byte := BitVec.ofNat 8 w
  if 8 < nbits then (.lengthWord, [BitVec.ofNat 8 (w / 256), b])
  else if Machine.isHex b then (.character, [b])
  else if b = Config.soi then (.field .soi, [b])
  else if b = 0 then (.stateCode, [b])
  else (.operation, [b])

/-- The instruction the decoder reads from a bare table word; `none` where it rejects. -/
def decodeTableWord (nbits w : Nat) : Option Instr :=
  match decodeWord (tableWord nbits w).1 (tableWord nbits w).2 with
  | .instr i => some i
  | .rejected _ => none

end Sys2Proof
end

