-- ==== Sys2Proof/Machine/Frame.lean ====
section
/-! DEFINITION. `Encode` and `Decode` at the functional level, as the spec's pseudocode gives them
(R74, R140, R144, R160). The port level (Machine/Encoder.lean, Machine/Decoder.lean) is a realisation of these. -/

namespace Sys2Proof.Machine

/-- What an accepted frame decodes to: the pair (status, payload) and the side-band values (R160, R165, D12). -/
structure Reply where
  version : Byte
  address : Byte
  deviceType : Byte
  status : Byte
  payload : List Byte
  deriving DecidableEq, Repr

/-- The result of `Encode`. -/
inductive EncodeVerdict where
  | ok (frame : List Byte)
  | err (e : ErrorName)
  deriving DecidableEq, Repr

/-- The result of `Decode`, with the count of bytes examined (R178) or the offset of the failing check (R160,
R166). -/
inductive DecodeVerdict where
  | ok (r : Reply) (consumed : Nat)
  | err (e : ErrorName) (pos : Nat)
  deriving DecidableEq, Repr

/-- First offset of a frame field, for a declared hex-character count `n` (R74). -/
def fieldOffset (n : Nat) : Field → Nat
  | .soi => 0 | .ver => 1 | .adr => 3 | .dev => 5 | .fn => 7 | .length => 9
  | .info => 13 | .chksum => 13 + n | .eoi => 17 + n

/-- Byte count of a frame field (R74). -/
def fieldWidth (n : Nat) : Field → Nat
  | .soi => 1 | .ver => 2 | .adr => 2 | .dev => 2 | .fn => 2 | .length => 4
  | .info => n | .chksum => 4 | .eoi => 1

/-- The twelve header characters, offsets 1..12 (R140, R144). -/
def headerChars (address function : Byte) (hexlen : Len12) : List Byte :=
  encodeByte Config.version ++ encodeByte address ++ encodeByte Config.deviceType ++ encodeByte function
    ++ encodeU16 (lengthFieldBuild hexlen)

/-- `Encode` (R140, errors R141): the address is checked first, and nothing is emitted on an error. -/
def encodeFrame (address function : Byte) (payload : List Byte) : EncodeVerdict :=
  if address.toNat > Config.addrMax then .err .invalidAddress
  else
    let hexlen := 2 * payload.length
    if hexlen > Config.maxHexlen then .err .payloadTooLarge
    else
      let body := headerChars address function (BitVec.ofNat 12 hexlen) ++ payload.flatMap encodeByte
      .ok ([Config.soi] ++ body ++ encodeU16 (frameChecksum body) ++ [Config.eoi])

/-- `enc_byte_at` (R144): the byte at offset `i`, from the latched operands, a reader of the payload and the
checksum `c`. Its domain is `0..17 + hexlen`; past it the model shows the terminator (log 30). -/
def encByteAt (payload : Nat → Byte) (address function : Byte) (hexlen : Len12) (c : U16) (i : Nat) : Byte :=
  if i = 0 then Config.soi
  else if i ≤ 12 then (headerChars address function hexlen)[i - 1]?.getD 0
  else if i ≤ 12 + hexlen.toNat then
    let j := i - 13
    let p := payload (j / 2)
    if j % 2 = 0 then encodeNibble (highNibble p) else encodeNibble (lowNibble p)
  else if i ≤ 16 + hexlen.toNat then (encodeU16 c)[i - (13 + hexlen.toNat)]?.getD 0
  else Config.eoi

/-- The first of the `count` offsets from `i` on whose byte is missing or is no hex digit, with its error
(`need(i)` and the digit check of R160). -/
def scanHex (raw : List Byte) (i : Nat) : Nat → Option (ErrorName × Nat)
  | 0 => none
  | count + 1 =>
    match raw[i]? with
    | none => some (.truncatedFrame, i)
    | some c => if isHex c then scanHex raw (i + 1) count else some (.invalidHexDigit, i)

/-- `decode_byte(raw[i], raw[i+1])`; every character it uses has been checked where R160 calls it. -/
def byteAt (raw : List Byte) (i : Nat) : Byte :=
  (decodeByte (raw[i]?.getD 0) (raw[i + 1]?.getD 0)).getD 0

/-- `decode_u16(raw[i..i+3])`; every character it uses has been checked where R160 calls it. -/
def wordAt (raw : List Byte) (i : Nat) : U16 :=
  (decodeU16 (raw[i]?.getD 0) (raw[i + 1]?.getD 0) (raw[i + 2]?.getD 0) (raw[i + 3]?.getD 0)).getD 0

/-- Steps 5 to 7 of `Decode`, once all hex digits are there (R160). -/
def decodeTail (raw : List Byte) (n : Nat) : DecodeVerdict :=
  if frameChecksum ((raw.drop 1).take (12 + n)) ≠ wordAt raw (13 + n) then .err .checksumMismatch (16 + n)
  else
    match raw[17 + n]? with
    | none => .err .truncatedFrame (17 + n)
    | some t =>
      if t ≠ Config.eoi then .err .malformedFrame (17 + n)
      else
        .ok { version := byteAt raw 1, address := byteAt raw 3, deviceType := byteAt raw 5,
              status := byteAt raw 7,
              payload := (List.range (n / 2)).map fun i => byteAt raw (13 + 2 * i) } (18 + n)

/-- Steps 3 and 4 of `Decode`, once the header digits are there (R160, R170). -/
def decodeBody (raw : List Byte) : DecodeVerdict :=
  match lengthFieldCheck (wordAt raw 9) with
  | none => .err .lengthChecksumMismatch 12
  | some l =>
    if l.toNat % 2 = 1 then .err .malformedFrame 12
    else
      match scanHex raw 13 (l.toNat + 4) with
      | some (e, i) => .err e i
      | none => decodeTail raw l.toNat

/-- `Decode` (R160): the checks in the order the bytes arrive, the first failing one decides (R161). -/
def decodeFrame (raw : List Byte) : DecodeVerdict :=
  match raw[0]? with
  | none => .err .truncatedFrame 0
  | some c =>
    if c ≠ Config.soi then .err .malformedFrame 0
    else
      match scanHex raw 1 12 with
      | some (e, i) => .err e i
      | none => decodeBody raw

end Sys2Proof.Machine
end

