-- ==== Sys2Proof/Machine/State.lean ====
section
/-! DEFINITION. The state of the machine as plain data (spec/10_state.md, 20_memory.md), the two kinds of stop,
and the state after reset (R21). -/

namespace Sys2Proof.Machine

/-- A byte buffer: (index, byte) pairs, indices strictly rising. An unlisted index has no value: nothing has
written it since reset (R21), or a decode that failed has left it unspecified (R177, D32; log 11). -/
abbrev Memory := List Host.Cell

/-- `E_PHASE` (R11). -/
inductive EPhase where
  | idle | emit | done | fail
  deriving DecidableEq, Repr

/-- `D_PHASE` (R11, R166). -/
inductive DPhase where
  | idle | soi | hdr | pay | chk | eoi | ok | fail
  deriving DecidableEq, Repr

/-- `frame_encoder` registers (R14). The error code register holds one of the nine names or none (R231). -/
structure EncRegs where
  /-- `E_PHASE` -/
  phase : EPhase
  /-- `E_IDX` -/
  idx : Pos
  /-- `E_ADR` -/
  adr : Byte
  /-- `E_FN` -/
  fn : Byte
  /-- `E_HEXLEN` -/
  hexlen : Len12
  /-- `E_ACC` -/
  acc : U16
  /-- `E_ERR` -/
  err : Option ErrorName
  deriving DecidableEq, Repr

/-- A `frame_decoder` (R15) with the `RPBUF` it writes (R43). -/
structure DecUnit where
  /-- `D_PHASE` -/
  phase : DPhase
  /-- `D_POS` -/
  pos : Pos
  /-- `D_ACC` -/
  acc : U16
  /-- `D_HI` -/
  hi : Nibble
  /-- `D_VER` -/
  ver : Byte
  /-- `D_ADR` -/
  adr : Byte
  /-- `D_DEV` -/
  dev : Byte
  /-- `D_FN` -/
  fn : Byte
  /-- `D_LEN` -/
  len : U16
  /-- `D_CHK` -/
  chk : U16
  /-- `D_PLEN` -/
  plen : BitVec 11
  /-- `D_ERR` -/
  err : Option ErrorName
  /-- `RPBUF` -/
  rpbuf : Memory
  deriving DecidableEq, Repr

/-- `transaction` registers (R16), with the level of `t_busy` (R199, R205; log 26). -/
structure TxnRegs where
  /-- `T_STATE` -/
  state : TState
  /-- the level of `t_busy` -/
  busy : Bool
  /-- `T_ADR` -/
  adr : Byte
  /-- `T_FN` -/
  fn : Byte
  /-- `T_REQLEN` -/
  reqlen : U16
  /-- `T_TIMEOUT` -/
  timeout : BitVec 32
  /-- `T_TIMER` -/
  timer : BitVec 32
  /-- `T_CNT` -/
  cnt : Pos
  /-- `T_N` -/
  n : Len12
  /-- `T_ERR` -/
  err : Option ErrorName
  /-- `T_STATUS` -/
  status : Byte
  /-- `T_RPLEN` -/
  rplen : BitVec 11
  /-- `T_VER` -/
  ver : Byte
  /-- `T_RADR` -/
  radr : Byte
  /-- `T_DEV` -/
  dev : Byte
  deriving DecidableEq, Repr

/-- The levels on the input ports (R108, R131, R146, R176, R205) and the list operands the caller presents
(R127, R128, R160). `rst` is not among them: a reset is a stimulus of its own. The caller's, not the
hardware's (log 5). -/
structure InPorts where
  hxEncIn : U16
  hxDecIn : BitVec 32
  hxDecSel : BitVec 2
  lcLen : Len12
  lcWordIn : U16
  acClear : Bool
  acAdd : Bool
  acByte : Byte
  /-- the byte-list operand of `frame_checksum` and `frame_checksum_verify` -/
  acBytes : List Byte
  /-- the operand `c_rx` of `frame_checksum_verify` -/
  acRx : U16
  enStart : Bool
  enAbort : Bool
  enAddr : Byte
  enFn : Byte
  enPlen : U16
  enOutReady : Bool
  deStart : Bool
  deInValid : Bool
  deInData : Byte
  deInEnd : Bool
  /-- the byte-list operand of `Decode`: what the producer has yet to offer -/
  deBytes : List Byte
  tStart : Bool
  tAddr : Byte
  tFn : Byte
  tPlen : U16
  tTimeout : BitVec 32
  pbWe : Bool
  pbIdx : BitVec 11
  pbData : Byte
  rpIdx : BitVec 11
  deriving DecidableEq, Repr

/-- What the environment does on the channel in one clock cycle (R60): whether it takes an offered byte, reports
a failure, pulses `tick`, and which bytes arrive. -/
structure ChanCycle where
  txReady : Bool
  txErr : Bool
  rxErr : Bool
  tick : Bool
  arrive : List Byte
  deriving DecidableEq, Repr

/-- The channel (R44): `ch.out`, `ch.in`, and what the environment will do in the coming cycles (log 8). -/
structure Channel where
  out : List Byte
  inn : List Byte
  future : List ChanCycle
  deriving DecidableEq, Repr

/-- A value an operation returns in `Ok` (R84). -/
inductive Value where
  | unit
  | chars (cs : List Byte)
  | nibble (n : Nibble)
  | byte (b : Byte)
  | u16 (w : U16)
  | len12 (l : Len12)
  | frame (bytes : List Byte)
  | reply (r : Reply)
  deriving DecidableEq, Repr

/-- `Ok(v)` or `Err(e)` (00_scope.md section 6, R17). -/
inductive Result where
  | ok (v : Value)
  | err (e : ErrorName)
  deriving DecidableEq, Repr

/-- One thing the caller does (log 3). -/
inductive Stimulus where
  /-- present a word of the table in its place -/
  | word (place : Place) (bytes : List Byte)
  /-- drive the input ports to these levels, without a clock edge -/
  | drive (p : InPorts)
  /-- drive the input ports to these levels, and one clock edge with `rst` low -/
  | clock (p : InPorts)
  /-- drive the input ports to these levels, and one clock edge with `rst` high (R260) -/
  | reset (p : InPorts)
  deriving DecidableEq, Repr

/-- Why the machine stops with a fault. -/
inductive Fault where
  /-- The caller wrote `PBUF` at index 2047, which the 11-bit port can carry and the 2047-byte buffer does not
  have (R41, R205). Raised by a clock stimulus. Safe: the hardware may go on, the model says nothing of it
  (log 14). -/
  | noSuchPbufIndex
  deriving DecidableEq, Repr

/-- Why the machine has no meaning for a stimulus. -/
inductive Refusal where
  /-- An instruction of the table without a meaning. Raised by no arm of `exec` in this model. Safe. -/
  | notModelled (mnemonic : String)
  /-- What is presented is a reserved operation identifier, error code or state code, or no identifier, code or
  length word at all: "no port ever carries them" (R83, R84, U11 "refuse", U12, U13). Received bytes are never refused.
  Raised by `step`. Safe. -/
  | noSuchWord
  deriving DecidableEq, Repr

structure State where
  /-- `ACC`, the stand-alone `additive_checksum_engine` (R13) -/
  acc : U16
  /-- the stand-alone `frame_encoder` (R14) -/
  enc : EncRegs
  /-- the bytes the consumer of the stand-alone encoder took since its last `enc_start` (R145; log 6) -/
  enTaken : List Byte
  /-- the stand-alone `frame_decoder` (R15) and its `RPBUF` -/
  dec : DecUnit
  /-- the `transaction` (R16) -/
  txn : TxnRegs
  /-- the `frame_encoder` inside the transaction -/
  txnEnc : EncRegs
  /-- the `frame_decoder` inside the transaction and its `RPBUF` -/
  txnDec : DecUnit
  /-- `PBUF` (R41) -/
  pbuf : Memory
  /-- `RXBUF` (R42) -/
  rxbuf : Memory
  /-- the channel (R44) -/
  chan : Channel
  /-- input port levels and list operands (R10, R22) -/
  ports : InPorts
  /-- the result of the last operation that ended (R17; log 6) -/
  result : Option Result
  /-- what the caller will do, first thing first (log 3) -/
  script : List Stimulus
  /-- how many resets there have been: indexes the unwritten bytes (log 11) -/
  epoch : Nat
  /-- how many free values have been drawn (log 12, log 13) -/
  draws : Nat
  deriving DecidableEq, Repr

/-- Encoder registers after reset (R21). -/
def EncRegs.atReset : EncRegs :=
  { phase := .idle, idx := 0, adr := 0, fn := 0, hexlen := 0, acc := 0, err := none }

/-- Decoder registers and `RPBUF` after reset (R21). -/
def DecUnit.atReset : DecUnit :=
  { phase := .idle, pos := 0, acc := 0, hi := 0, ver := 0, adr := 0, dev := 0, fn := 0, len := 0, chk := 0,
    plen := 0, err := none, rpbuf := [] }

/-- Transaction registers after reset (R21). -/
def TxnRegs.atReset : TxnRegs :=
  { state := .idle, busy := false, adr := 0, fn := 0, reqlen := 0, timeout := 0, timer := 0, cnt := 0, n := 0,
    err := none, status := 0, rplen := 0, ver := 0, radr := 0, dev := 0 }

/-- All input ports low and all list operands empty (log 5). -/
def InPorts.low : InPorts :=
  { hxEncIn := 0, hxDecIn := 0, hxDecSel := 0, lcLen := 0, lcWordIn := 0, acClear := false, acAdd := false,
    acByte := 0, acBytes := [], acRx := 0, enStart := false, enAbort := false, enAddr := 0, enFn := 0, enPlen := 0,
    enOutReady := false, deStart := false, deInValid := false, deInData := 0, deInEnd := false, deBytes := [],
    tStart := false, tAddr := 0, tFn := 0, tPlen := 0, tTimeout := 0, pbWe := false, pbIdx := 0, pbData := 0,
    rpIdx := 0 }

/-- A cycle in which the environment does nothing. -/
def ChanCycle.quiet : ChanCycle :=
  { txReady := false, txErr := false, rxErr := false, tick := false, arrive := [] }

/-- The machine right after reset: every register as R21 says, buffers with no byte listed, an empty channel,
all input ports low and nothing for the caller to do (log 3, log 5, log 8). -/
def State.reset : State :=
  { acc := 0, enc := EncRegs.atReset, enTaken := [], dec := DecUnit.atReset, txn := TxnRegs.atReset,
    txnEnc := EncRegs.atReset, txnDec := DecUnit.atReset, pbuf := [], rxbuf := [],
    chan := { out := [], inn := [], future := [] }, ports := InPorts.low, result := none, script := [],
    epoch := 0, draws := 0 }

/-- Record the result of an operation that ended (R17). -/
def State.setResult (s : State) (r : Result) : State := { s with result := some r }

/-- Replace `ACC`. -/
def State.setAcc (s : State) (a : U16) : State := { s with acc := a }

/-- Replace the stand-alone decoder. -/
def State.setDec (s : State) (d : DecUnit) : State := { s with dec := d }

/-- Replace the transaction's registers. -/
def State.setTxn (s : State) (t : TxnRegs) : State := { s with txn := t }

/-- Replace the transaction's encoder. -/
def State.setTxnEnc (s : State) (e : EncRegs) : State := { s with txnEnc := e }

/-- Replace the transaction's decoder. -/
def State.setTxnDec (s : State) (d : DecUnit) : State := { s with txnDec := d }

/-- Replace the channel. -/
def State.setChan (s : State) (c : Channel) : State := { s with chan := c }

/-- Replace the input port levels. -/
def State.setPorts (s : State) (p : InPorts) : State := { s with ports := p }

/-- Replace the caller's remaining stimuli. -/
def State.setScript (s : State) (l : List Stimulus) : State := { s with script := l }

end Sys2Proof.Machine
end

