-- ==== Sys2Proof/Machine/Ops.lean ====
section
/-! DEFINITION. The shared operations: buffers, the channel, taking an error and leaving it. -/

namespace Sys2Proof.Machine

/-- Read one byte of a buffer; `none` where it has no value (R21, R177). Reads have no side effect
(R53). -/
def Memory.read : Memory → Nat → Option Byte
  | [], _ => none
  | (k, v) :: m, i => if k = i then some v else Memory.read m i

/-- Write one byte of a buffer, keeping the indices strictly rising. -/
def Memory.write : Memory → Nat → Byte → Memory
  | [], i, b => [(i, b)]
  | (k, v) :: m, i, b =>
    if i < k then (i, b) :: (k, v) :: m
    else if i = k then (i, b) :: m
    else (k, v) :: Memory.write m i b

/-- Write one byte of a buffer of `size` bytes; there is no cell at or above `size` (log 15). -/
def Memory.writeIn (size : Nat) (m : Memory) (i : Nat) (b : Byte) : Memory :=
  if i < size then Memory.write m i b else m

/-- The canonical form: indices strictly rising. No entry equals what an unlisted index reads as, which is no
value at all. -/
def Memory.wf : Memory → Bool
  | [] => true
  | [_] => true
  | (i, _) :: (j, b) :: m => decide (i < j) && Memory.wf ((j, b) :: m)

/-- Every listed index is an index of a buffer of `size` bytes (R41, R42, R43). -/
def Memory.bounded (size : Nat) (m : Memory) : Bool := m.all fun c => decide (c.1 < size)

/-- The byte the hardware finds at an index: the written one, or, where it has no value, a free value (R21, U14;
log 11). -/
def Memory.valueAt (buffer epoch : Nat) (m : Memory) (i : Nat) : Byte :=
  (Memory.read m i).getD (Config.unwrittenByte buffer epoch i)

/-- Bytes `0..count-1` of a buffer. -/
def Memory.bytes (buffer epoch : Nat) (m : Memory) (count : Nat) : List Byte :=
  (List.range count).map (Memory.valueAt buffer epoch m)

/-- What the environment does in the current cycle, and the channel once that cycle's bytes have arrived (R44).
When the list of coming cycles has run out the environment is quiet (log 8). -/
def nextCycle (c : Channel) : ChanCycle × Channel :=
  match c.future with
  | [] => (ChanCycle.quiet, c)
  | e :: rest => (e, { c with inn := c.inn ++ e.arrive, future := rest })

/-- `ChanFlush`: discard unread input, leave the output alone (R46, R56). -/
def chanFlush (c : Channel) : Channel := { c with inn := [] }

/-- One byte of `ChanWrite` taken by the transport (R47, R60). -/
def chanPut (c : Channel) (b : Byte) : Channel := { c with out := c.out ++ [b] }

/-- The blocks that have an error register (R17). -/
inductive Block where
  | encoder | decoder | transaction | txnEncoder | txnDecoder
  deriving DecidableEq, Repr

/-- An encoder takes an error: `E_ERR` and `E_PHASE = E_FAIL` (R244). -/
def encTakeError (e : ErrorName) (r : EncRegs) : EncRegs := { r with err := some e, phase := .fail }

/-- A decoder takes an error: `D_ERR` and `D_PHASE = D_FAIL`; `D_POS` keeps the offset (R166, R244). From then on
no byte of `RPBUF` has a value (R177, D32; log 11). -/
def decTakeError (e : ErrorName) (d : DecUnit) : DecUnit := { d with err := some e, phase := .fail, rpbuf := [] }

/-- The transaction takes an error: `T_ERR` and `T_STATE = Failed`, no longer busy (R190 `fail`, R205, R244). -/
def txnTakeError (e : ErrorName) (t : TxnRegs) : TxnRegs :=
  { t with err := some e, state := .failed, busy := false }

/-- TAKING AN ERROR (R244): the block's error register is written and its phase goes to the failed value.
Nothing is saved or stacked, control goes nowhere, and what was done before the failing check stands. -/
def takeError (b : Block) (e : ErrorName) (s : State) : State :=
  match b with
  | .encoder => { s with enc := encTakeError e s.enc }
  | .decoder => { s with dec := decTakeError e s.dec }
  | .transaction => { s with txn := txnTakeError e s.txn }
  | .txnEncoder => { s with txnEnc := encTakeError e s.txnEnc }
  | .txnDecoder => { s with txnDec := decTakeError e s.txnDec }

/-- LEAVING AN ERROR, encoder: the next start clears the code (R245). -/
def encLeaveError (r : EncRegs) : EncRegs := { r with err := none }

/-- LEAVING AN ERROR, decoder (R245). -/
def decLeaveError (d : DecUnit) : DecUnit := { d with err := none }

/-- LEAVING AN ERROR, transaction (R245). -/
def txnLeaveError (t : TxnRegs) : TxnRegs := { t with err := none }

/-- LEAVING AN ERROR (R245): there is no return instruction; a block's next start clears its error code. -/
def leaveError (b : Block) (s : State) : State :=
  match b with
  | .encoder => { s with enc := encLeaveError s.enc }
  | .decoder => { s with dec := decLeaveError s.dec }
  | .transaction => { s with txn := txnLeaveError s.txn }
  | .txnEncoder => { s with txnEnc := encLeaveError s.txnEnc }
  | .txnDecoder => { s with txnDec := decLeaveError s.txnDec }

end Sys2Proof.Machine
end

