-- ==== Sys2Proof/Machine/Operands.lean ====
section
/-! DEFINITION. Where each operation finds its operands: on the input ports of its block (R10), in the bit
positions R108, R131, R146, R176 and R205 give; a payload operand stands in `PBUF` (R41). -/

namespace Sys2Proof.Machine

/-- `encode_nibble`: `hx_enc_in[3:0]` (R108). -/
def nibbleOperand (p : InPorts) : Nibble := p.hxEncIn.extractLsb' 0 4

/-- `encode_byte`: `hx_enc_in[7:0]` (R108). -/
def byteOperand (p : InPorts) : Byte := p.hxEncIn.extractLsb' 0 8

/-- `encode_u16`: `hx_enc_in` (R108). -/
def u16Operand (p : InPorts) : U16 := p.hxEncIn

/-- Character `k` of `hx_dec_in`, counted from the last one: 0 is bits 7..0, 3 is bits 31..24 (R108). -/
def charOperand (p : InPorts) (k : Nat) : Byte := p.hxDecIn.extractLsb' (8 * k) 8

/-- `length_checksum`, `length_field_build`: `lc_len` (R131). -/
def lengthOperand (p : InPorts) : Len12 := p.lcLen

/-- `length_field_check`: `lc_word_in` (R131). -/
def lengthWordOperand (p : InPorts) : U16 := p.lcWordIn

/-- The payload operand of the stand-alone `Encode`: `PBUF[0..en_plen-1]` (R146). -/
def encodePayload (s : State) : List Byte := Memory.bytes 0 s.epoch s.pbuf s.ports.enPlen.toNat

/-- The payload operand of `execute`: `PBUF[0..t_plen-1]` (R190, R205). -/
def executePayload (s : State) : List Byte := Memory.bytes 0 s.epoch s.pbuf s.ports.tPlen.toNat

end Sys2Proof.Machine
end

