-- ==== Sys2Proof/Machine/Accumulator.lean ====
section
/-! DEFINITION. The stand-alone additive_checksum_engine: its steps (R124 to R126), its clock cycle (R131) and the
operations `frame_checksum` and `frame_checksum_verify` (R127, R128). -/

namespace Sys2Proof.Machine

open Host (Outcome)

/-- Step `acc_clear` (R124). -/
def accClearStep (s : State) : State := { s with acc := 0 }

/-- Step `acc_add(b)` (R125). -/
def accAddStep (b : Byte) (s : State) : State := { s with acc := accAdd s.acc b }

/-- One clock cycle of the block: clear wins over add (R131). -/
def accCycle (s : State) : State :=
  if s.ports.acClear then accClearStep s
  else if s.ports.acAdd then accAddStep s.ports.acByte s
  else s

/-- `acc_clear`, then `acc_add(b)` for each byte of the list operand in order, each byte taken from the caller
(R127). -/
def accRun (s : State) : State :=
  let t := s.ports.acBytes.foldl (fun t b => accAddStep b t) (accClearStep s)
  { t with ports := { t.ports with acBytes := [] } }

/-- `frame_checksum` (R127). -/
def execFrameChecksum (s : State) : Outcome State Fault Refusal :=
  let t := accRun s
  .next (t.setResult (.ok (.u16 (accResult t.acc))))

/-- `frame_checksum_verify` (R128): the recomputed checksum is compared with `c_rx`; nothing is repaired (R132). -/
def execFrameChecksumVerify (s : State) : Outcome State Fault Refusal :=
  let t := accRun s
  .next (t.setResult (if accResult t.acc = t.ports.acRx then .ok .unit else .err .checksumMismatch))

end Sys2Proof.Machine
end

