-- ==== Sys2Proof/Machine/Decoder.lean ====
section
/-! DEFINITION. frame_decoder as a stream parser (R166 to R174, R176), and the operation `Decode` run on it
(R160, R175). -/

namespace Sys2Proof.Machine

open Host (Outcome)

/-- `de_in_ready`: the phases that accept a byte (R166, R176). -/
def decAccepts : DPhase → Bool
  | .soi | .hdr | .pay | .chk | .eoi => true
  | .idle | .ok | .fail => false

/-- `N`, a name for `D_LEN[11:0]` (R15). -/
def decN (d : DecUnit) : Nat := (lenid d.len).toNat

/-- `dec_start` (R167): allowed in any phase; `RPBUF` is not cleared. -/
def decStart (d : DecUnit) : DecUnit :=
  decLeaveError { d with phase := .soi, pos := 0, acc := 0, hi := 0, ver := 0, adr := 0, dev := 0, fn := 0,
                         len := 0, chk := 0, plen := 0 }

/-- The end of every succeeding `dec_byte`: `D_POS <- D_POS + 1` (R166). -/
def decAdvance (phase : DPhase) (d : DecUnit) : DecUnit := { d with phase := phase, pos := d.pos + 1 }

/-- What a header digit `v` (character `c`) writes, by position (R169). -/
def decHeaderDigit (c : Byte) (v : Nibble) (d : DecUnit) : DecUnit :=
  let d := { d with acc := accAdd d.acc c }
  match d.pos.toNat with
  | 1 | 3 | 5 | 7 => { d with hi := v }
  | 2 => { d with ver := joinNibbles d.hi v }
  | 4 => { d with adr := joinNibbles d.hi v }
  | 6 => { d with dev := joinNibbles d.hi v }
  | 8 => { d with fn := joinNibbles d.hi v }
  | _ => { d with len := shiftInNibble d.len v }

/-- The length evaluation, in the step that consumes offset 12 (R170). -/
def decLength (d : DecUnit) : DecUnit :=
  match lengthFieldCheck d.len with
  | none => decTakeError .lengthChecksumMismatch d
  | some l =>
    if l.toNat % 2 = 1 then decTakeError .malformedFrame d
    else decAdvance (if l = 0 then .chk else .pay) d

/-- `dec_byte` in `D_HDR` (R169). -/
def decHeader (c : Byte) (d : DecUnit) : DecUnit :=
  match decodeNibble c with
  | none => decTakeError .invalidHexDigit d
  | some v =>
    let t := decHeaderDigit c v d
    if d.pos = 12 then decLength t else decAdvance .hdr t

/-- `dec_byte` in `D_PAY` (R171). -/
def decPayload (c : Byte) (d : DecUnit) : DecUnit :=
  match decodeNibble c with
  | none => decTakeError .invalidHexDigit d
  | some v =>
    let j := d.pos.toNat - 13
    let d := { d with acc := accAdd d.acc c }
    let d :=
      if j % 2 = 0 then { d with hi := v }
      else { d with rpbuf := Memory.writeIn Config.rpbufSize d.rpbuf (j / 2) (joinNibbles d.hi v),
                    plen := BitVec.ofNat 11 (j / 2 + 1) }
    decAdvance (if d.pos.toNat = 12 + decN d then .chk else .pay) d

/-- `dec_byte` in `D_CHK` (R172). -/
def decChecksum (c : Byte) (d : DecUnit) : DecUnit :=
  match decodeNibble c with
  | none => decTakeError .invalidHexDigit d
  | some v =>
    let d := { d with chk := shiftInNibble d.chk v }
    if d.pos.toNat = 16 + decN d then
      if d.chk = accResult d.acc then decAdvance .eoi d else decTakeError .checksumMismatch d
    else decAdvance .chk d

/-- `dec_byte(c)` (R168 to R173). In a phase that accepts no byte it cannot happen and does nothing (R174). -/
def decByte (c : Byte) (d : DecUnit) : DecUnit :=
  match d.phase with
  | .soi => if c = Config.soi then decAdvance .hdr d else decTakeError .malformedFrame d
  | .hdr => decHeader c d
  | .pay => decPayload c d
  | .chk => decChecksum c d
  | .eoi => if c = Config.eoi then decAdvance .ok d else decTakeError .malformedFrame d
  | .idle | .ok | .fail => d

/-- `dec_end` (R174). -/
def decEnd (d : DecUnit) : DecUnit := if decAccepts d.phase then decTakeError .truncatedFrame d else d

/-- `dec_byte` for each byte of a list while the phase accepts bytes; the decoder and the bytes not taken
(R175, D11). The byte on which a check fails has been taken (log 17). -/
def decRun : List Byte → DecUnit → DecUnit × List Byte
  | [], d => (d, [])
  | c :: cs, d => if decAccepts d.phase then decRun cs (decByte c d) else (d, c :: cs)

/-- The results of an accepted frame (R173); `buffer` says whose `RPBUF` it is. -/
def decReply (buffer epoch : Nat) (d : DecUnit) : Reply :=
  { version := d.ver, address := d.adr, deviceType := d.dev, status := d.fn,
    payload := Memory.bytes buffer epoch d.rpbuf d.plen.toNat }

/-- The result of the stand-alone `Decode`, once it is over (R165, R173, R177). -/
def decResult (s : State) : Option Result :=
  match s.dec.phase with
  | .ok => some (.ok (.reply (decReply 2 s.epoch s.dec)))
  | .fail => s.dec.err.map .err
  | .idle | .soi | .hdr | .pay | .chk | .eoi => none

/-- Bytes offered in order at the stand-alone decoder's port (R176). A decode that they end has its result
presented. -/
def decOffer (bytes : List Byte) (s : State) : State :=
  let t := { s with dec := (decRun bytes s.dec).1 }
  if decAccepts s.dec.phase && !decAccepts t.dec.phase then { t with result := decResult t } else t

/-- One clock cycle of the stand-alone decoder: start has priority, a byte is consumed before `dec_end`
(R176; log 16). -/
def decCycle (s : State) : State :=
  if s.ports.deStart then { s with dec := decStart s.dec }
  else
    let d := if s.ports.deInValid && decAccepts s.dec.phase then decByte s.ports.deInData s.dec else s.dec
    { s with dec := if s.ports.deInEnd then decEnd d else d }

/-- `Decode` (R160), as the stream parser performs it on the list operand (R175): `dec_start`, the bytes while
they are accepted, `dec_end` if more are needed, whatever levels the `de_` ports carry (log 32). Bytes that were not
taken stay with the producer (R178). -/
def execDecode (s : State) : Outcome State Fault Refusal :=
  let r := decRun s.ports.deBytes (decStart s.dec)
  let t := { s with dec := decEnd r.1, ports := { s.ports with deBytes := r.2 } }
  .next { t with result := decResult t }

end Sys2Proof.Machine
end

