-- ==== Sys2Proof/Machine/Characters.lean ====
section
/-! DEFINITION. The 22 hex characters of the table (R70, R71): a character is decoded by `decode_nibble`
(R103) and offered to the stand-alone frame decoder, which consumes it if its phase accepts bytes (R166, R176;
log 1). -/

namespace Sys2Proof.Machine

open Host (Outcome)

/-- A character presented on the receive side: its nibble is the result (R103), and it is offered to the decoder
as one byte (R168 to R173). -/
def presentCharacter (c : Byte) (s : State) : State :=
  (decOffer [c] s).setResult
    (match decodeNibble c with
     | some n => .ok (.nibble n)
     | none => .err .invalidHexDigit)

/-- `hexchar_0`: the byte 0x30, nibble 0 (R100). -/
def execHexchar0 (s : State) : Outcome State Fault Refusal := .next (presentCharacter 0x30 s)

/-- `hexchar_1`: the byte 0x31, nibble 1 (R100). -/
def execHexchar1 (s : State) : Outcome State Fault Refusal := .next (presentCharacter 0x31 s)

/-- `hexchar_2`: the byte 0x32, nibble 2 (R100). -/
def execHexchar2 (s : State) : Outcome State Fault Refusal := .next (presentCharacter 0x32 s)

/-- `hexchar_3`: the byte 0x33, nibble 3 (R100). -/
def execHexchar3 (s : State) : Outcome State Fault Refusal := .next (presentCharacter 0x33 s)

/-- `hexchar_4`: the byte 0x34, nibble 4 (R100). -/
def execHexchar4 (s : State) : Outcome State Fault Refusal := .next (presentCharacter 0x34 s)

/-- `hexchar_5`: the byte 0x35, nibble 5 (R100). -/
def execHexchar5 (s : State) : Outcome State Fault Refusal := .next (presentCharacter 0x35 s)

/-- `hexchar_6`: the byte 0x36, nibble 6 (R100). -/
def execHexchar6 (s : State) : Outcome State Fault Refusal := .next (presentCharacter 0x36 s)

/-- `hexchar_7`: the byte 0x37, nibble 7 (R100). -/
def execHexchar7 (s : State) : Outcome State Fault Refusal := .next (presentCharacter 0x37 s)

/-- `hexchar_8`: the byte 0x38, nibble 8 (R100). -/
def execHexchar8 (s : State) : Outcome State Fault Refusal := .next (presentCharacter 0x38 s)

/-- `hexchar_9`: the byte 0x39, nibble 9 (R100). -/
def execHexchar9 (s : State) : Outcome State Fault Refusal := .next (presentCharacter 0x39 s)

/-- `hexchar_A`: the byte 0x41, nibble 10 (R100). -/
def execHexcharUpperA (s : State) : Outcome State Fault Refusal := .next (presentCharacter 0x41 s)

/-- `hexchar_B`: the byte 0x42, nibble 11 (R100). -/
def execHexcharUpperB (s : State) : Outcome State Fault Refusal := .next (presentCharacter 0x42 s)

/-- `hexchar_C`: the byte 0x43, nibble 12 (R100). -/
def execHexcharUpperC (s : State) : Outcome State Fault Refusal := .next (presentCharacter 0x43 s)

/-- `hexchar_D`: the byte 0x44, nibble 13 (R100). -/
def execHexcharUpperD (s : State) : Outcome State Fault Refusal := .next (presentCharacter 0x44 s)

/-- `hexchar_E`: the byte 0x45, nibble 14 (R100). -/
def execHexcharUpperE (s : State) : Outcome State Fault Refusal := .next (presentCharacter 0x45 s)

/-- `hexchar_F`: the byte 0x46, nibble 15 (R100). -/
def execHexcharUpperF (s : State) : Outcome State Fault Refusal := .next (presentCharacter 0x46 s)

/-- `hexchar_a`: the byte 0x61, nibble 10 (R103). -/
def execHexcharLowerA (s : State) : Outcome State Fault Refusal := .next (presentCharacter 0x61 s)

/-- `hexchar_b`: the byte 0x62, nibble 11 (R103). -/
def execHexcharLowerB (s : State) : Outcome State Fault Refusal := .next (presentCharacter 0x62 s)

/-- `hexchar_c`: the byte 0x63, nibble 12 (R103). -/
def execHexcharLowerC (s : State) : Outcome State Fault Refusal := .next (presentCharacter 0x63 s)

/-- `hexchar_d`: the byte 0x64, nibble 13 (R103). -/
def execHexcharLowerD (s : State) : Outcome State Fault Refusal := .next (presentCharacter 0x64 s)

/-- `hexchar_e`: the byte 0x65, nibble 14 (R103). -/
def execHexcharLowerE (s : State) : Outcome State Fault Refusal := .next (presentCharacter 0x65 s)

/-- `hexchar_f`: the byte 0x66, nibble 15 (R103). -/
def execHexcharLowerF (s : State) : Outcome State Fault Refusal := .next (presentCharacter 0x66 s)

end Sys2Proof.Machine
end

