-- ==== Sys2Proof/Machine/Encoder.lean ====
section
/-! DEFINITION. frame_encoder at the port level (R144 to R147), and the operation `Encode` run on it (R140). -/

namespace Sys2Proof.Machine

open Host (Outcome)

/-- `enc_start` with these operands (R145): latch, clear the error code, and decide both errors before anything
is emitted (R141, R147). `hexlen` is computed wide enough not to wrap (D26). -/
def encStart (adr fn : Byte) (plen : U16) (r : EncRegs) : EncRegs :=
  let r := encLeaveError { r with adr := adr, fn := fn, idx := 0, acc := 0 }
  if adr.toNat > Config.addrMax then encTakeError .invalidAddress r
  else if 2 * plen.toNat > Config.maxHexlen then encTakeError .payloadTooLarge r
  else { r with hexlen := BitVec.ofNat 12 (2 * plen.toNat), phase := .emit }

/-- The byte offered while emitting, `en_out_data` (R144, R145, R146). -/
def encData (payload : Nat → Byte) (r : EncRegs) : Byte :=
  encByteAt payload r.adr r.fn r.hexlen (accResult r.acc) r.idx.toNat

/-- `enc_emit`: the consumer takes the offered byte (R145). -/
def encEmit (payload : Nat → Byte) (r : EncRegs) : EncRegs :=
  let i := r.idx.toNat
  { r with
    acc := if 1 ≤ i ∧ i ≤ 12 + r.hexlen.toNat then accAdd r.acc (encData payload r) else r.acc
    phase := if i = 17 + r.hexlen.toNat then .done else r.phase
    idx := r.idx + 1 }

/-- `enc_abort` (R145). -/
def encAbort (r : EncRegs) : EncRegs := { r with phase := .idle }

/-- The payload an encoder reads: `PBUF` (R41). -/
def payloadByte (s : State) (i : Nat) : Byte := Memory.valueAt 0 s.epoch s.pbuf i

/-- `enc_start` of the stand-alone encoder, unless it is emitting (R145, D20). -/
def encStartStep (s : State) : State :=
  if s.enc.phase = .emit then s
  else { s with enc := encStart s.ports.enAddr s.ports.enFn s.ports.enPlen s.enc, enTaken := [] }

/-- `enc_emit` of the stand-alone encoder: its consumer takes one byte (R145). -/
def encEmitStep (s : State) : State :=
  { s with enc := encEmit (payloadByte s) s.enc, enTaken := s.enTaken ++ [encData (payloadByte s) s.enc] }

/-- One clock cycle of the stand-alone encoder (R145, R146). An abort comes last: nothing more is emitted
(log 16). -/
def encCycle (s : State) : State :=
  let t :=
    if s.ports.enStart ∧ s.enc.phase ≠ .emit then encStartStep s
    else if s.enc.phase = .emit ∧ s.ports.enOutReady then encEmitStep s
    else s
  if t.ports.enAbort then { t with enc := encAbort t.enc } else t

/-- `enc_emit` until the terminator is taken, at most `count` times. -/
def encRun : Nat → State → State
  | 0, s => s
  | count + 1, s => if s.enc.phase = .emit then encRun count (encEmitStep s) else s

/-- The result of the stand-alone `Encode`: the bytes taken, or the error (R145). -/
def encResult (s : State) : Option Result :=
  match s.enc.phase with
  | .done => some (.ok (.frame s.enTaken))
  | .fail => s.enc.err.map .err
  | .idle | .emit => none

/-- `Encode` (R140): start, and every byte taken up to the terminator. Ignored while an encode is in progress
(R145, D20). The word is its own start and its own willing consumer: the levels on `en_start`, `en_out_ready` and
`en_abort` play no part in it (log 32). -/
def execEncode (s : State) : Outcome State Fault Refusal :=
  if s.enc.phase = .emit then .next s
  else
    let t := encStartStep s
    let t := encRun (Config.overhead + t.enc.hexlen.toNat) t
    .next { t with result := encResult t }

end Sys2Proof.Machine
end

