-- ==== Sys2Proof/Machine/Transaction.lean ====
section
/-! DEFINITION. The transaction block: `execute` at the functional level (R190), its state machine one clock
cycle at a time (R199, R204, R206), and the operation `execute` run on it. -/

namespace Sys2Proof.Machine

open Host (Outcome)

/-- An answer of `ChanWrite` (R47). -/
inductive WriteAnswer where
  | count (k : Nat)
  | ioError
  deriving DecidableEq, Repr

/-- An answer of `ChanRead` (R48). -/
inductive ReadAnswer where
  | bytes (b : List Byte)
  | timeout
  | ioError
  deriving DecidableEq, Repr

/-- Steps T5 to T7 of `execute` at the functional level, with the header region `h` in hand (R195 to R197). -/
def executeTail (h : List Byte) (payload : ReadAnswer) : Result :=
  match payload with
  | .timeout => .err .responseTimeout
  | .ioError => .err .ioError
  | .bytes p =>
    match decodeFrame (h ++ p) with
    | .err e _ => .err e
    | .ok r _ => .ok (.reply r)

/-- Step T4 of `execute`: only the four length characters of the header region are looked at (R194, D14). -/
def headerLength (h : List Byte) : Except ErrorName Len12 :=
  match decodeU16 (h[9]?.getD 0) (h[10]?.getD 0) (h[11]?.getD 0) (h[12]?.getD 0) with
  | none => .error .invalidHexDigit
  | some w =>
    match lengthFieldCheck w with
    | none => .error .lengthChecksumMismatch
    | some l => .ok l

/-- `execute` at the functional level (R190): the result as a function of the operands and the channel's
answers to the write, the header read and the payload read (R208). -/
def executeFunctional (address function : Byte) (payload : List Byte) (w : WriteAnswer)
    (header second : ReadAnswer) : Result :=
  match encodeFrame address function payload with
  | .err e => .err e
  | .ok frame =>
    if w = .count frame.length then
      match header with
      | .timeout => .err .responseTimeout
      | .ioError => .err .ioError
      | .bytes h =>
        match headerLength h with
        | .error e => .err e
        | .ok _ => executeTail h second
    else .err .ioError

/-- The transaction ends with `Err(e)` (R190 `fail`). -/
def txnFail (e : ErrorName) (s : State) : State := (takeError .transaction e s).setResult (.err e)

/-- `start` (R199 first row, R204): latch the operands, clear `T_ERR`, flush (R191), give `enc_start` to the
encoder. No result stands until the exchange ends. -/
def txnStart (s : State) : State :=
  { s with
    chan := chanFlush s.chan
    txn := { txnLeaveError s.txn with
      state := .idle, busy := true, adr := s.ports.tAddr, fn := s.ports.tFn, reqlen := s.ports.tPlen,
      timeout := s.ports.tTimeout }
    txnEnc := encStart s.ports.tAddr s.ports.tFn s.ports.tPlen s.txnEnc
    result := none }

/-- The transport takes the offered byte (R60, R204). -/
def txnPut (s : State) : State :=
  { s with chan := chanPut s.chan (encData (payloadByte s) s.txnEnc), txnEnc := encEmit (payloadByte s) s.txnEnc }

/-- `Idle` (busy): the encoder's error, or one cycle of the write (R192, R199, R204). A byte the transport takes
in the cycle of `tx_err` has been sent (log 18). -/
def txnWrite (c : ChanCycle) (s : State) : State :=
  match s.txnEnc.phase with
  | .fail =>
    match s.txnEnc.err with
    | some e => txnFail e s
    | none => s
  | .emit =>
    let t := if c.txReady then txnPut s else s
    if c.txErr then txnFail .ioError { t with txnEnc := encAbort t.txnEnc }
    else if t.txnEnc.phase = .done then t.setTxn { t.txn with state := .sent }
    else t
  | .idle | .done => s

/-- `Sent`: start the header read (R199). -/
def txnSent (s : State) : State := s.setTxn { s.txn with state := .awaitingHeader, cnt := 0, timer := 0 }

/-- A consumed reply byte is stored at `RXBUF[T_CNT]` and counted (R42, R204). -/
def txnStore (s : State) (b : Byte) : State :=
  { s with
    rxbuf := Memory.writeIn Config.rxbufSize s.rxbuf s.txn.cnt.toNat b
    txn := { s.txn with cnt := s.txn.cnt + 1 } }

/-- The read consumes every byte of `ch.in`, the first one first. -/
def txnDrain (s : State) : State := (s.chan.inn.foldl txnStore s).setChan { s.chan with inn := [] }

/-- Steps (3) and (4) of the deadline rule (R206). `Timeout` is allowed only where fewer bytes are there than the
read wants (R48), and the bytes that did arrive are consumed by it (R48, D18); where all of them are there the
functional level wins over the deadline (R8; log 29). -/
def txnDeadline (limit : Nat) (c : ChanCycle) (s : State) : State :=
  if s.txn.timer ≥ s.txn.timeout ∧ s.txn.cnt.toNat + s.chan.inn.length < limit then
    txnFail .responseTimeout (txnDrain s)
  else if c.tick ∧ s.txn.timer.toNat < 4294967295 then s.setTxn { s.txn with timer := s.txn.timer + 1 }
  else s

/-- One cycle of a read that wants bytes until `T_CNT = limit` (R204, R206): a reported failure, then an offered
byte, then the deadline, then the tick. After a failure `ch.in` is a free value (R48; log 12). -/
def txnRead (limit : Nat) (c : ChanCycle) (s : State) : State :=
  if c.rxErr then
    txnFail .ioError
      { s with chan := { s.chan with inn := Config.inputAfterIoError s.draws }, draws := s.draws + 1 }
  else
    match s.chan.inn with
    | [] => txnDeadline limit c s
    | b :: rest =>
      let t := txnStore (s.setChan { s.chan with inn := rest }) b
      if t.txn.cnt.toNat = limit then t else txnDeadline limit c t

/-- The bytes stored so far, `RXBUF[0..count-1]` (R42). -/
def rxBytes (s : State) (count : Nat) : List Byte := Memory.bytes 1 s.epoch s.rxbuf count

/-- T4: length extraction from `RXBUF[9..12]` (R194, R199). -/
def txnLength (s : State) : State :=
  match headerLength (rxBytes s Config.headerRegion) with
  | .error e => txnFail e s
  | .ok l => s.setTxn { s.txn with n := l, timer := 0, state := .awaitingPayload }

/-- The bytes `T_N` makes the reply have: the header region and `T_N` more (R194, C5). -/
def replyLength (t : TxnRegs) : Nat := Config.headerRegion + t.n.toNat

/-- T6 and T7: the reply is replayed into the transaction's decoder, and the verdict copied (R196, R197, R198,
R204). In no state a run reaches does the decoder still want bytes (R196; log 23). -/
def txnDecode (s : State) : State :=
  let d := (decRun (rxBytes s (replyLength s.txn)) (decStart s.txnDec)).1
  let t := s.setTxnDec d
  match d.phase with
  | .ok =>
    (t.setTxn { t.txn with
      state := .complete, busy := false, status := d.fn, rplen := d.plen, ver := d.ver, radr := d.adr,
      dev := d.dev }).setResult (.ok (.reply (decReply 3 s.epoch d)))
  | .fail =>
    match d.err with
    | some e => txnFail e t
    | none => t
  | .idle | .soi | .hdr | .pay | .chk | .eoi => t

/-- One clock cycle of a busy transaction, by its state (R199, R204, R206). -/
def txnAdvance (c : ChanCycle) (s : State) : State :=
  match s.txn.state with
  | .idle => txnWrite c s
  | .sent => txnSent s
  | .awaitingHeader =>
    if s.txn.cnt.toNat < Config.headerRegion then txnRead Config.headerRegion c s else txnLength s
  | .awaitingPayload =>
    if s.txn.cnt.toNat < replyLength s.txn then txnRead (replyLength s.txn) c s else txnDecode s
  | .complete | .failed => s

/-- The channel's share of a clock cycle: the bytes that arrive (R44). -/
def txnArrive (s : State) : State := s.setChan (nextCycle s.chan).2

/-- One clock cycle of the transaction and its channel (R199, R204). At rest it holds its result until `start`
(R198, R245); `t_start` while busy is ignored (D20). -/
def txnCycle (s : State) : State :=
  let t := txnArrive s
  if t.txn.busy then txnAdvance (nextCycle s.chan).1 t
  else if t.ports.tStart then txnStart t
  else t

/-- `count` clock cycles, fewer if the exchange ends before. -/
def txnRun : Nat → State → State
  | 0, s => s
  | count + 1, s => if s.txn.busy then txnRun count (txnCycle s) else s

/-- Enough cycles for everything the environment will do, for every byte to be read, and for the four cycles
(T2's end, `Sent`, T4, T6) that wait for nothing (log 10). -/
def channelWork (c : Channel) : Nat :=
  c.future.length + c.inn.length + (c.future.map fun e => e.arrive.length).sum + 4

/-- `execute` (R190): `start`, then cycle by cycle until the exchange ends. Where the channel has no more to give
while the exchange still waits for it, the transaction stays busy (R270). Ignored while busy (R204, D20). The word is
the start, whatever level is on `t_start` (log 32). -/
def execExecute (s : State) : Outcome State Fault Refusal :=
  if s.txn.busy then .next s
  else .next (txnRun (channelWork s.chan) (txnStart (txnArrive s)))

/-- The pseudo-operation `get_protocol_version` reads the reply's version field as `major + minor/10`; here in
tenths (R92; not part of the hardware, R4 (f)). -/
def protocolVersionTenths (s : State) : Nat :=
  10 * (highNibble s.txn.ver).toNat + (lowNibble s.txn.ver).toNat

end Sys2Proof.Machine
end

