-- ==== Sys2Proof/Machine/Flags.lean ====
section
/-! DEFINITION. The status the hardware reports (R17, R18): error codes (R231), state codes (R205), and every
output port as a function of the state and the input levels (R60, R108, R131, R146, R176, R205). There is no flags
register (R17). -/

namespace Sys2Proof.Machine

/-- The 4-bit code of an error name (R231). -/
def errorCode : ErrorName → BitVec 4
  | .ioError => 1
  | .responseTimeout => 2
  | .invalidHexDigit => 3
  | .lengthChecksumMismatch => 4
  | .checksumMismatch => 5
  | .malformedFrame => 6
  | .invalidAddress => 7
  | .payloadTooLarge => 8
  | .truncatedFrame => 9

/-- What an `err` port shows: 0 is "no error" (R17, R231). -/
def errPort : Option ErrorName → BitVec 4
  | none => 0
  | some e => errorCode e

/-- The 3-bit code on `t_state` (R205). -/
def stateCode : TState → BitVec 3
  | .idle => 0
  | .sent => 1
  | .awaitingHeader => 2
  | .awaitingPayload => 3
  | .complete => 4
  | .failed => 5

/-- What `hx_dec_out` and `hx_dec_err` are computed from: the decode `hx_dec_sel` selects; 3 is treated as 2
(R108). -/
def hexDecode (p : InPorts) : Option U16 :=
  match p.hxDecSel.toNat with
  | 0 => (decodeNibble (charOperand p 0)).map (·.setWidth 16)
  | 1 => (decodeByte (charOperand p 1) (charOperand p 0)).map (·.setWidth 16)
  | _ => decodeU16 (charOperand p 3) (charOperand p 2) (charOperand p 1) (charOperand p 0)

/-- The outputs of the combinational blocks (R108, R131). -/
structure LeafOutputs where
  hxEncOut : BitVec 32
  hxDecOut : U16
  hxDecErr : Bool
  lcChk : Nibble
  lcWord : U16
  lcOk : Bool
  lcLenOut : Len12
  acAcc : U16
  acSum : U16
  deriving DecidableEq, Repr

/-- Four characters as one 32-bit level, the first in the most significant byte (R108). -/
def packChars (cs : List Byte) : BitVec 32 := cs.foldl (fun w c => (w <<< 8) ||| c.setWidth 32) 0

/-- Outputs of hex_codec, nibble_checksum_validator and the accumulator; a failed decode or check shows 0
(R108, R131, D7). -/
def leafOutputs (s : State) : LeafOutputs :=
  { hxEncOut := packChars (encodeU16 s.ports.hxEncIn)
    hxDecOut := (hexDecode s.ports).getD 0
    hxDecErr := (hexDecode s.ports).isNone
    lcChk := lengthChecksum s.ports.lcLen
    lcWord := lengthFieldBuild s.ports.lcLen
    lcOk := (lengthFieldCheck s.ports.lcWordIn).isSome
    lcLenOut := (lengthFieldCheck s.ports.lcWordIn).getD 0
    acAcc := s.acc
    acSum := accResult s.acc }

/-- The outputs of a frame_encoder (R146). -/
structure EncOutputs where
  pbIdx : BitVec 11
  outValid : Bool
  outData : Byte
  outLast : Bool
  done : Bool
  ok : Bool
  err : BitVec 4
  deriving DecidableEq, Repr

/-- R146: a byte is offered while emitting; the last one offered is the terminator. R146 gives `en_pb_idx` only
while payload is emitted, and R144 gives `en_out_data` only up to offset `17 + E_HEXLEN`: the levels elsewhere are the
model's choice (log 30). -/
def encOutputs (payload : Nat → Byte) (r : EncRegs) : EncOutputs :=
  { pbIdx := BitVec.ofNat 11 ((r.idx.toNat - 13) / 2)
    outValid := r.phase == .emit
    outData := encData payload r
    outLast := r.phase == .emit && r.idx.toNat == 17 + r.hexlen.toNat
    done := r.phase == .done || r.phase == .fail
    ok := r.phase == .done
    err := errPort r.err }

/-- The outputs of a frame_decoder (R176). -/
structure DecOutputs where
  inReady : Bool
  done : Bool
  ok : Bool
  err : BitVec 4
  pos : Pos
  status : Byte
  ver : Byte
  adr : Byte
  dev : Byte
  plen : BitVec 11
  /-- the write port into `RPBUF` in this cycle: index and data, when `de_pb_we` is high -/
  pbWrite : Option (BitVec 11 × Byte)
  deriving DecidableEq, Repr

/-- The `RPBUF` write a byte causes when it is consumed now (R171, R176). -/
def decWritePort (c : Byte) (d : DecUnit) : Option (BitVec 11 × Byte) :=
  match d.phase, decodeNibble c with
  | .pay, some v =>
    let j := d.pos.toNat - 13
    if j % 2 = 1 then some (BitVec.ofNat 11 (j / 2), joinNibbles d.hi v) else none
  | _, _ => none

/-- R176, with the results gated while `de_ok` is low (R177); `valid`, `data` and `start` are the levels on
`de_in_valid`, `de_in_data` and `de_start`. -/
def decOutputs (start valid : Bool) (data : Byte) (d : DecUnit) : DecOutputs :=
  let ok := d.phase == .ok
  { inReady := decAccepts d.phase
    done := d.phase == .ok || d.phase == .fail
    ok := ok
    err := errPort d.err
    pos := d.pos
    status := if ok then d.fn else 0
    ver := if ok then d.ver else 0
    adr := if ok then d.adr else 0
    dev := if ok then d.dev else 0
    plen := if ok then d.plen else 0
    pbWrite := if valid && !start then decWritePort data d else none }

/-- The outputs of the transaction, the channel's among them (R60, R205). -/
structure TxnOutputs where
  busy : Bool
  done : Bool
  ok : Bool
  err : BitVec 4
  state : BitVec 3
  status : Byte
  rplen : BitVec 11
  ver : Byte
  radr : Byte
  dev : Byte
  /-- `rp_data`; no value where `RPBUF` holds no result byte at `rp_idx` (R43, R177) -/
  rpData : Option Byte
  chFlush : Bool
  txValid : Bool
  txData : Byte
  rxReady : Bool
  deriving DecidableEq, Repr

/-- `rx_ready`: high only in the two read states while bytes are still wanted (R60, D30). -/
def rxReady (t : TxnRegs) : Bool :=
  t.busy &&
    match t.state with
    | .awaitingHeader => decide (t.cnt.toNat < Config.headerRegion)
    | .awaitingPayload => decide (t.cnt.toNat < replyLength t)
    | .idle | .sent | .complete | .failed => false

/-- R205 and R60, with the results gated while `t_ok` is low (R198, R272). -/
def txnOutputs (s : State) : TxnOutputs :=
  let ok := s.txn.state == .complete
  { busy := s.txn.busy
    done := s.txn.state == .complete || s.txn.state == .failed
    ok := ok
    err := errPort s.txn.err
    state := stateCode s.txn.state
    status := if ok then s.txn.status else 0
    rplen := if ok then s.txn.rplen else 0
    ver := if ok then s.txn.ver else 0
    radr := if ok then s.txn.radr else 0
    dev := if ok then s.txn.dev else 0
    rpData := if ok && decide (s.ports.rpIdx < s.txn.rplen)
      then some (Memory.valueAt 3 s.epoch s.txnDec.rpbuf s.ports.rpIdx.toNat) else none
    chFlush := !s.txn.busy && s.ports.tStart
    txValid := s.txn.busy && s.txn.state == .idle && s.txnEnc.phase == .emit
    txData := encData (payloadByte s) s.txnEnc
    rxReady := rxReady s.txn }

/-- Every output port (R22). -/
structure Outputs where
  leaf : LeafOutputs
  enc : EncOutputs
  dec : DecOutputs
  txn : TxnOutputs
  deriving DecidableEq, Repr

/-- The outputs while `rst` is low. -/
def outputs (s : State) : Outputs :=
  { leaf := leafOutputs s
    enc := encOutputs (payloadByte s) s.enc
    dec := decOutputs s.ports.deStart s.ports.deInValid s.ports.deInData s.dec
    txn := txnOutputs s }

/-- An encoder's outputs while `rst` is high: no byte is offered (R260), so none that is the terminator: that
`en_out_last` is low then is the model's choice (log 31). -/
def encInReset (o : EncOutputs) : EncOutputs :=
  { o with outValid := false, outLast := false, done := false, ok := false }

/-- A decoder's outputs while `rst` is high: with `de_ok` low its results read 0 (R176, R177), and with
`de_in_ready` low no byte is consumed that could write `RPBUF` (R176). -/
def decInReset (o : DecOutputs) : DecOutputs :=
  { o with
    inReady := false, done := false, ok := false, status := 0, ver := 0, adr := 0, dev := 0, plen := 0,
    pbWrite := none }

/-- The transaction's outputs while `rst` is high: with `t_ok` low its results read 0 and `RPBUF` shows no result
(R205, R272). -/
def txnInReset (o : TxnOutputs) : TxnOutputs :=
  { o with
    done := false, ok := false, status := 0, rplen := 0, ver := 0, radr := 0, dev := 0, rpData := none,
    chFlush := false, txValid := false, rxReady := false }

/-- The outputs while `rst` is high: every `valid`, `ready`, `done`, `ok` and `ch_flush` output of the registered
blocks is low (R260). The levels that R260 does not name are the model's choice (log 31): the combinational blocks,
`lc_ok` among them, go on following their inputs (R12, R131), `en_out_last` is low, and every output that is no result
follows its register. -/
def outputsInReset (s : State) : Outputs :=
  let o := outputs s
  { o with
    enc := encInReset o.enc
    dec := decInReset o.dec
    txn := txnInReset o.txn }

end Sys2Proof.Machine
end

