-- ==== Sys2Proof/Machine/Clock.lean ====
section
/-! DEFINITION. One clock edge of the whole hardware, reset among them (R131, R145, R176, R204, R260), and what the
machine does next: the caller's next stimulus, or a clock edge (log 3, log 4). -/

namespace Sys2Proof.Machine

open Host (Outcome)

/-- The `PBUF` write port while the buffer must be held (R266, U16; log 13): whether the write lands is a free
value, and where the written byte belongs to a frame being emitted, that frame's checksum is one too. -/
def pbufLateWrite (s : State) : State :=
  let i := s.ports.pbIdx.toNat
  let spoil (r : EncRegs) : EncRegs :=
    if r.phase = .emit ∧ 2 * i < r.hexlen.toNat then { r with acc := Config.lateChecksum s.draws } else r
  { s with
    pbuf := if Config.lateWriteLands s.draws then Memory.writeIn Config.pbufSize s.pbuf i s.ports.pbData else s.pbuf
    enc := spoil s.enc
    txnEnc := spoil s.txnEnc
    draws := s.draws + 1 }

/-- Whether `PBUF` must be held: an encode or an exchange is in progress (R41, R266). -/
def pbufHeld (s : State) : Bool := s.txn.busy || s.enc.phase == .emit

/-- The caller's `PBUF` write port (R41, R205). Index 2047 does not exist (log 14). -/
def pbufCycle (s : State) : Outcome State Fault Refusal :=
  if s.ports.pbWe then
    if s.ports.pbIdx.toNat < Config.pbufSize then
      .next (if pbufHeld s then pbufLateWrite s
        else { s with pbuf := Memory.writeIn Config.pbufSize s.pbuf s.ports.pbIdx.toNat s.ports.pbData })
    else .fault .noSuchPbufIndex
  else .next s

/-- One clock edge with `rst` low: the `PBUF` port, then every block's own cycle, all on one `clk` (R22). -/
def clockEdge (s : State) : Outcome State Fault Refusal :=
  match pbufCycle s with
  | .next t => .next (txnCycle (decCycle (encCycle (accCycle t))))
  | .fault r => .fault r
  | .refused r => .refused r

/-- One clock edge with `rst` high (R260, R261): every register takes its reset value and the buffers hold
nothing; the channel, the caller's inputs and what the outside has taken stay, and `ch.in` is not flushed. -/
def resetEdge (s : State) : State :=
  { State.reset with
    chan := (nextCycle s.chan).2, ports := s.ports, enTaken := s.enTaken, script := s.script,
    epoch := s.epoch + 1, draws := s.draws }

/-- Presented bytes that are no word of the table. At the place of a character or a frame field they are received
bytes all the same, and none of those is undefined (R83): a character gives what `decode_nibble` gives, and every byte
is offered to the stand-alone decoder (R176; log 1). Reserved identifiers and codes are on no port (R83, R84, U11, U12,
U13). -/
def receive (place : Place) (bytes : List Byte) (s : State) : Outcome State Fault Refusal :=
  match place, bytes with
  | .character, [c] => .next (presentCharacter c s)
  | .character, cs => .next (decOffer cs s)
  | .field _, cs => .next (decOffer cs s)
  | .operation, _ | .lengthWord, _ | .errorCode, _ | .stateCode, _ => .refused .noSuchWord

/-- What the machine does next. -/
inductive Fetched where
  /-- run this word from this state -/
  | run (i : Instr) (s : State)
  /-- this is the outcome -/
  | done (o : Outcome State Fault Refusal)

/-- The caller's next stimulus; when there is none, one clock edge of every block with the port levels held (R22;
log 4). -/
def fetch (s : State) : Fetched :=
  match s.script with
  | [] => .done (clockEdge s)
  | .word place bytes :: rest =>
    match decodeWord place bytes with
    | .instr i => .run i (s.setScript rest)
    | .rejected _ => .done (receive place bytes (s.setScript rest))
  | .drive p :: rest => .done (.next ((s.setScript rest).setPorts p))
  | .clock p :: rest => .done (clockEdge ((s.setScript rest).setPorts p))
  | .reset p :: rest => .done (.next (resetEdge ((s.setScript rest).setPorts p)))

/-- Put a bare table word in front of what the caller will do. -/
def presentTableWord (nbits w : Nat) (s : State) : State :=
  s.setScript (.word (tableWord nbits w).1 (tableWord nbits w).2 :: s.script)

end Sys2Proof.Machine
end

