-- ==== Sys2Proof/Machine/Errors.lean ====
section
/-! DEFINITION. The nine error codes of the table (R231): an error's word is the event that the error is taken
(R244). An error is taken by the operation that raises it, at the failing check and nowhere else (R17, R243); where
no operation raises it now, nothing happens (log 27). -/

namespace Sys2Proof.Machine

open Host (Outcome)

/-- The clock cycle `t` of the transaction, from `s`, is one in which an exchange ends with error `e`. -/
def txnRaises (e : ErrorName) (s t : State) : Bool := s.txn.busy && !t.txn.busy && t.txn.err == some e

/-- The clock cycle `t` of the stand-alone decoder, from `s`, is one in which a decode fails with error `e`. -/
def decRaises (e : ErrorName) (s t : State) : Bool :=
  decAccepts s.dec.phase && t.dec.phase == .fail && t.dec.err == some e

/-- The clock cycle `t` of the stand-alone encoder, from `s`, is one in which an encode is refused with error
`e`. -/
def encRaises (e : ErrorName) (s t : State) : Bool :=
  s.ports.enStart && t.enc.phase == .fail && s.enc.phase != .emit && t.enc.err == some e

/-- The error is taken by `execute` (R190 `fail`). -/
def raiseInTxn (e : ErrorName) (otherwise s : State) : State :=
  if txnRaises e s (txnCycle s) then txnCycle s else otherwise

/-- The error is taken by `Decode`; the result is the error. -/
def raiseInDec (e : ErrorName) (otherwise s : State) : State :=
  if decRaises e s (decCycle s) then (decCycle s).setResult (.err e) else otherwise

/-- The error is taken by `Encode`; the result is the error. -/
def raiseInEnc (e : ErrorName) (otherwise s : State) : State :=
  if encRaises e s (encCycle s) then (encCycle s).setResult (.err e) else otherwise

/-- `IoError`, raised by `execute` only (R232). -/
def execErrIoError (s : State) : Outcome State Fault Refusal := .next (raiseInTxn .ioError s s)

/-- `ResponseTimeout`, raised by `execute` only (R233). -/
def execErrResponseTimeout (s : State) : Outcome State Fault Refusal := .next (raiseInTxn .responseTimeout s s)

/-- `InvalidHexDigit`, raised by `execute`, `Decode` and the hex decodes (R234). -/
def execErrInvalidHexDigit (s : State) : Outcome State Fault Refusal :=
  let leaf := if (hexDecode s.ports).isNone then s.setResult (.err .invalidHexDigit) else s
  .next (raiseInTxn .invalidHexDigit (raiseInDec .invalidHexDigit leaf s) s)

/-- `LengthChecksumMismatch`, raised by `execute`, `Decode` and `length_field_check` (R235). -/
def execErrLengthChecksumMismatch (s : State) : Outcome State Fault Refusal :=
  let leaf :=
    if (lengthFieldCheck s.ports.lcWordIn).isNone then s.setResult (.err .lengthChecksumMismatch) else s
  .next (raiseInTxn .lengthChecksumMismatch (raiseInDec .lengthChecksumMismatch leaf s) s)

/-- `ChecksumMismatch`, raised by `execute`, `Decode` and `frame_checksum_verify` (R236), the last being the
comparison of `ac_sum` with `c_rx` (R131). -/
def execErrChecksumMismatch (s : State) : Outcome State Fault Refusal :=
  let leaf := if accResult s.acc = s.ports.acRx then s else s.setResult (.err .checksumMismatch)
  .next (raiseInTxn .checksumMismatch (raiseInDec .checksumMismatch leaf s) s)

/-- `MalformedFrame`, raised by `execute` and `Decode` (R237). -/
def execErrMalformedFrame (s : State) : Outcome State Fault Refusal :=
  .next (raiseInTxn .malformedFrame (raiseInDec .malformedFrame s s) s)

/-- `InvalidAddress`, raised by `execute` and `Encode` (R238). -/
def execErrInvalidAddress (s : State) : Outcome State Fault Refusal :=
  .next (raiseInTxn .invalidAddress (raiseInEnc .invalidAddress s s) s)

/-- `PayloadTooLarge`, raised by `execute` and `Encode` (R239). -/
def execErrPayloadTooLarge (s : State) : Outcome State Fault Refusal :=
  .next (raiseInTxn .payloadTooLarge (raiseInEnc .payloadTooLarge s s) s)

/-- `TruncatedFrame`, raised by `Decode` only (R240). -/
def execErrTruncatedFrame (s : State) : Outcome State Fault Refusal :=
  .next (raiseInDec .truncatedFrame s s)

end Sys2Proof.Machine
end

