-- ==== Sys2Proof/Machine/Fields.lean ====
section
/-! DEFINITION. The nine frame fields of the table (R74 to R79): the field's wire bytes are offered in order at the
stand-alone decoder's port (R176). What each byte does there depends on the decoder's phase and position
(R166 to R173); a decoder at rest takes none. -/

namespace Sys2Proof.Machine

open Host (Outcome)

/-- `SOI` (R75, R168). -/
def execFrameSoi (s : State) : Outcome State Fault Refusal := .next (decOffer [Config.soi] s)

/-- `VER`, two characters (R76, R169). -/
def execFrameVer (c0 c1 : Byte) (s : State) : Outcome State Fault Refusal := .next (decOffer [c0, c1] s)

/-- `ADR`, two characters (R76, R169). -/
def execFrameAdr (c0 c1 : Byte) (s : State) : Outcome State Fault Refusal := .next (decOffer [c0, c1] s)

/-- `DEV`, two characters (R76, R169). -/
def execFrameDev (c0 c1 : Byte) (s : State) : Outcome State Fault Refusal := .next (decOffer [c0, c1] s)

/-- `FN`, two characters (R76, R169). -/
def execFrameFn (c0 c1 : Byte) (s : State) : Outcome State Fault Refusal := .next (decOffer [c0, c1] s)

/-- `LENGTH`, four characters (R77, R169, R170). -/
def execFrameLength (c0 c1 c2 c3 : Byte) (s : State) : Outcome State Fault Refusal :=
  .next (decOffer [c0, c1, c2, c3] s)

/-- `INFO`, the payload characters (R78, R171). -/
def execFrameInfo (chars : List Byte) (s : State) : Outcome State Fault Refusal := .next (decOffer chars s)

/-- `CHKSUM`, four characters (R79, R172). -/
def execFrameChksum (c0 c1 c2 c3 : Byte) (s : State) : Outcome State Fault Refusal :=
  .next (decOffer [c0, c1, c2, c3] s)

/-- `EOI` (R75, R173). -/
def execFrameEoi (s : State) : Outcome State Fault Refusal := .next (decOffer [Config.eoi] s)

end Sys2Proof.Machine
end

