-- ==== Sys2Proof/Machine/HexCodec.lean ====
section
/-! DEFINITION. The operations of hex_codec (R100 to R105) and nibble_checksum_validator (R120 to R122). The
blocks hold no state (R12): an operation changes nothing but the presented result. -/

namespace Sys2Proof.Machine

open Host (Outcome)

/-- `Ok(f v)` of a decode that has a value, `Err(e)` of one that has none (R107, R132). -/
def resultOf {α : Type} (e : ErrorName) (f : α → Value) : Option α → Result
  | some v => .ok (f v)
  | none => .err e

/-- `encode_nibble` (R100). -/
def execEncodeNibble (s : State) : Outcome State Fault Refusal :=
  .next (s.setResult (.ok (.chars [encodeNibble (nibbleOperand s.ports)])))

/-- `encode_byte` (R101). -/
def execEncodeByte (s : State) : Outcome State Fault Refusal :=
  .next (s.setResult (.ok (.chars (encodeByte (byteOperand s.ports)))))

/-- `encode_u16` (R102). -/
def execEncodeU16 (s : State) : Outcome State Fault Refusal :=
  .next (s.setResult (.ok (.chars (encodeU16 (u16Operand s.ports)))))

/-- `decode_nibble` (R103). -/
def execDecodeNibble (s : State) : Outcome State Fault Refusal :=
  .next (s.setResult (resultOf .invalidHexDigit .nibble (decodeNibble (charOperand s.ports 0))))

/-- `decode_byte` (R104): `c0` is bits 15..8 of `hx_dec_in` (R108). -/
def execDecodeByte (s : State) : Outcome State Fault Refusal :=
  .next (s.setResult (resultOf .invalidHexDigit .byte (decodeByte (charOperand s.ports 1) (charOperand s.ports 0))))

/-- `decode_u16` (R105): `c0` is bits 31..24 of `hx_dec_in` (R108). -/
def execDecodeU16 (s : State) : Outcome State Fault Refusal :=
  .next (s.setResult (resultOf .invalidHexDigit .u16
    (decodeU16 (charOperand s.ports 3) (charOperand s.ports 2) (charOperand s.ports 1) (charOperand s.ports 0))))

/-- `length_checksum` (R120). -/
def execLengthChecksum (s : State) : Outcome State Fault Refusal :=
  .next (s.setResult (.ok (.nibble (lengthChecksum (lengthOperand s.ports)))))

/-- `length_field_build` (R121). -/
def execLengthFieldBuild (s : State) : Outcome State Fault Refusal :=
  .next (s.setResult (.ok (.u16 (lengthFieldBuild (lengthOperand s.ports)))))

/-- `length_field_check` (R122). -/
def execLengthFieldCheck (s : State) : Outcome State Fault Refusal :=
  .next (s.setResult (resultOf .lengthChecksumMismatch .len12 (lengthFieldCheck (lengthWordOperand s.ports))))

/-- The length word presented at `lc_word_in`: the validator checks it (R77, R122, R131; log 1). -/
def execLengthWord (k : Nibble) (l : Len12) (s : State) : Outcome State Fault Refusal :=
  let t := s.setPorts { s.ports with lcWordIn := lengthWordOf k l }
  .next (t.setResult (resultOf .lengthChecksumMismatch .len12 (lengthFieldCheck (lengthWordOf k l))))

end Sys2Proof.Machine
end

