-- ==== Sys2Proof/Machine/States.lean ====
section
/-! DEFINITION. The six transaction states of the table (R199): the phase register plays the role of a program
counter (R11), and a state's word is what the transaction does next in that state: its own share of a clock edge,
with no edge of `clk` for the other blocks (log 1, log 4). No transition leaves a state the transaction is not in
(R199). -/

namespace Sys2Proof.Machine

open Host (Outcome)

/-- The transaction's share of a clock edge if `T_STATE` is `x`; otherwise there is no transition from `x` to make
(R199). -/
def cycleIn (x : TState) (s : State) : State := if s.txn.state = x then txnCycle s else s

/-- The word of a transaction state (R205). -/
def stateWord : TState → Instr
  | .idle => .tStateIdle
  | .sent => .tStateSent
  | .awaitingHeader => .tStateAwaitingHeader
  | .awaitingPayload => .tStateAwaitingPayload
  | .complete => .tStateComplete
  | .failed => .tStateFailed

/-- `Idle`: at rest it waits for `start`; busy, it encodes and writes (R191, R192). -/
def execTStateIdle (s : State) : Outcome State Fault Refusal := .next (cycleIn .idle s)

/-- `Sent`: the header read starts (R193). -/
def execTStateSent (s : State) : Outcome State Fault Refusal := .next (cycleIn .sent s)

/-- `AwaitingHeader`: one cycle of the header read, or T4 (R193, R194). -/
def execTStateAwaitingHeader (s : State) : Outcome State Fault Refusal := .next (cycleIn .awaitingHeader s)

/-- `AwaitingPayload`: one cycle of the payload read, or T6 and T7 (R195 to R197). -/
def execTStateAwaitingPayload (s : State) : Outcome State Fault Refusal := .next (cycleIn .awaitingPayload s)

/-- `Complete`: it holds its result until `start` (R198, R199). -/
def execTStateComplete (s : State) : Outcome State Fault Refusal := .next (cycleIn .complete s)

/-- `Failed`: it holds its error until `start` (R199, R245). -/
def execTStateFailed (s : State) : Outcome State Fault Refusal := .next (cycleIn .failed s)

end Sys2Proof.Machine
end

