-- ==== Sys2Proof/Machine/Dispatch.lean ====
section
/-! DEFINITION. One arm per word of the table. -/

namespace Sys2Proof.Machine

def exec (i : Instr) (s : State) : Host.Outcome State Fault Refusal :=
  match i with
  | .encodeNibble => Sys2Proof.Machine.execEncodeNibble s
  | .encodeByte => Sys2Proof.Machine.execEncodeByte s
  | .encodeU16 => Sys2Proof.Machine.execEncodeU16 s
  | .decodeNibble => Sys2Proof.Machine.execDecodeNibble s
  | .decodeByte => Sys2Proof.Machine.execDecodeByte s
  | .decodeU16 => Sys2Proof.Machine.execDecodeU16 s
  | .lengthChecksum => Sys2Proof.Machine.execLengthChecksum s
  | .lengthFieldBuild => Sys2Proof.Machine.execLengthFieldBuild s
  | .lengthFieldCheck => Sys2Proof.Machine.execLengthFieldCheck s
  | .frameChecksum => Sys2Proof.Machine.execFrameChecksum s
  | .frameChecksumVerify => Sys2Proof.Machine.execFrameChecksumVerify s
  | .encode => Sys2Proof.Machine.execEncode s
  | .decode => Sys2Proof.Machine.execDecode s
  | .execute => Sys2Proof.Machine.execExecute s
  | .hexchar0 => Sys2Proof.Machine.execHexchar0 s
  | .hexchar1 => Sys2Proof.Machine.execHexchar1 s
  | .hexchar2 => Sys2Proof.Machine.execHexchar2 s
  | .hexchar3 => Sys2Proof.Machine.execHexchar3 s
  | .hexchar4 => Sys2Proof.Machine.execHexchar4 s
  | .hexchar5 => Sys2Proof.Machine.execHexchar5 s
  | .hexchar6 => Sys2Proof.Machine.execHexchar6 s
  | .hexchar7 => Sys2Proof.Machine.execHexchar7 s
  | .hexchar8 => Sys2Proof.Machine.execHexchar8 s
  | .hexchar9 => Sys2Proof.Machine.execHexchar9 s
  | .hexcharUpperA => Sys2Proof.Machine.execHexcharUpperA s
  | .hexcharUpperB => Sys2Proof.Machine.execHexcharUpperB s
  | .hexcharUpperC => Sys2Proof.Machine.execHexcharUpperC s
  | .hexcharUpperD => Sys2Proof.Machine.execHexcharUpperD s
  | .hexcharUpperE => Sys2Proof.Machine.execHexcharUpperE s
  | .hexcharUpperF => Sys2Proof.Machine.execHexcharUpperF s
  | .hexcharLowerA => Sys2Proof.Machine.execHexcharLowerA s
  | .hexcharLowerB => Sys2Proof.Machine.execHexcharLowerB s
  | .hexcharLowerC => Sys2Proof.Machine.execHexcharLowerC s
  | .hexcharLowerD => Sys2Proof.Machine.execHexcharLowerD s
  | .hexcharLowerE => Sys2Proof.Machine.execHexcharLowerE s
  | .hexcharLowerF => Sys2Proof.Machine.execHexcharLowerF s
  | .frameSoi => Sys2Proof.Machine.execFrameSoi s
  | .frameVer c0 c1 => Sys2Proof.Machine.execFrameVer c0 c1 s
  | .frameAdr c0 c1 => Sys2Proof.Machine.execFrameAdr c0 c1 s
  | .frameDev c0 c1 => Sys2Proof.Machine.execFrameDev c0 c1 s
  | .frameFn c0 c1 => Sys2Proof.Machine.execFrameFn c0 c1 s
  | .frameLength c0 c1 c2 c3 => Sys2Proof.Machine.execFrameLength c0 c1 c2 c3 s
  | .frameInfo chars => Sys2Proof.Machine.execFrameInfo chars s
  | .frameChksum c0 c1 c2 c3 => Sys2Proof.Machine.execFrameChksum c0 c1 c2 c3 s
  | .frameEoi => Sys2Proof.Machine.execFrameEoi s
  | .lengthWord k l => Sys2Proof.Machine.execLengthWord k l s
  | .errIoError => Sys2Proof.Machine.execErrIoError s
  | .errResponseTimeout => Sys2Proof.Machine.execErrResponseTimeout s
  | .errInvalidHexDigit => Sys2Proof.Machine.execErrInvalidHexDigit s
  | .errLengthChecksumMismatch => Sys2Proof.Machine.execErrLengthChecksumMismatch s
  | .errChecksumMismatch => Sys2Proof.Machine.execErrChecksumMismatch s
  | .errMalformedFrame => Sys2Proof.Machine.execErrMalformedFrame s
  | .errInvalidAddress => Sys2Proof.Machine.execErrInvalidAddress s
  | .errPayloadTooLarge => Sys2Proof.Machine.execErrPayloadTooLarge s
  | .errTruncatedFrame => Sys2Proof.Machine.execErrTruncatedFrame s
  | .tStateIdle => Sys2Proof.Machine.execTStateIdle s
  | .tStateSent => Sys2Proof.Machine.execTStateSent s
  | .tStateAwaitingHeader => Sys2Proof.Machine.execTStateAwaitingHeader s
  | .tStateAwaitingPayload => Sys2Proof.Machine.execTStateAwaitingPayload s
  | .tStateComplete => Sys2Proof.Machine.execTStateComplete s
  | .tStateFailed => Sys2Proof.Machine.execTStateFailed s

end Sys2Proof.Machine
end

