-- ==== Sys2Proof/Safety.lean ====
section
/-! DEFINITION. What the statements call a well-formed state: the promises the spec makes of every state the hardware
can be in, as predicates that every step must keep. -/

namespace Sys2Proof.Safety

open Sys2Proof.Machine

/-- A buffer in canonical form, with no cell outside its size. -/
def GoodBuffer (size : Nat) (m : Memory) : Prop := Memory.wf m = true ∧ Memory.bounded size m = true

/-- Every buffer is in canonical form and within its size (R19, R41, R42, R43). -/
def BuffersCanonical (s : State) : Prop :=
  GoodBuffer Config.pbufSize s.pbuf ∧ GoodBuffer Config.rxbufSize s.rxbuf ∧
  GoodBuffer Config.rpbufSize s.dec.rpbuf ∧ GoodBuffer Config.rpbufSize s.txnDec.rpbuf

/-- An encoder's error code is set exactly in `E_FAIL` (or left behind by an abort), and is one of the two errors
`Encode` raises (R17, R141, R145). -/
def EncErrorMatches (r : EncRegs) : Prop :=
  (r.phase = .fail → r.err = some .invalidAddress ∨ r.err = some .payloadTooLarge) ∧
  (r.phase = .emit ∨ r.phase = .done → r.err = none)

/-- The five errors `Decode` raises (R160). -/
def decodeErrors : List ErrorName :=
  [.malformedFrame, .invalidHexDigit, .lengthChecksumMismatch, .checksumMismatch, .truncatedFrame]

/-- A decoder's error code is set exactly in `D_FAIL`, and is one of the five errors `Decode` raises
(R17, R160). -/
def DecErrorMatches (d : DecUnit) : Prop :=
  (d.phase = .fail → ∃ e ∈ decodeErrors, d.err = some e) ∧ (d.phase ≠ .fail → d.err = none)

/-- The transaction's error code is set exactly in `Failed`, and is never `TruncatedFrame` (R17, R190, R240). -/
def TxnErrorMatches (t : TxnRegs) : Prop :=
  (t.state = .failed → ∃ e, t.err = some e ∧ e ≠ .truncatedFrame) ∧ (t.state ≠ .failed → t.err = none)

/-- Error codes and phases agree in every block (R17, R244). -/
def ErrorsMatchPhases (s : State) : Prop :=
  EncErrorMatches s.enc ∧ EncErrorMatches s.txnEnc ∧ DecErrorMatches s.dec ∧ DecErrorMatches s.txnDec ∧
  TxnErrorMatches s.txn

/-- `t_busy` and `T_STATE` agree: `Complete` and `Failed` are resting states, `Sent` and the two read states are
busy ones, and while the exchange is in `Idle` its encoder is emitting or has refused (R199, R205). -/
def BusyMatchesState (s : State) : Prop :=
  (s.txn.busy = true → s.txn.state ≠ .complete ∧ s.txn.state ≠ .failed) ∧
  (s.txn.busy = false → s.txn.state = .idle ∨ s.txn.state = .complete ∨ s.txn.state = .failed) ∧
  (s.txn.busy = true → s.txn.state = .idle → s.txnEnc.phase = .emit ∨ s.txnEnc.phase = .fail)

/-- `E_IDX` stays within the frame, and `E_HEXLEN` is the even length of a legal payload (R11, R14, R145). -/
def EncInRange (r : EncRegs) : Prop :=
  (r.phase = .emit → r.hexlen.toNat % 2 = 0 ∧ r.hexlen.toNat ≤ 4094 ∧ r.idx.toNat ≤ 17 + r.hexlen.toNat) ∧
  (r.phase = .done → r.hexlen.toNat % 2 = 0 ∧ r.hexlen.toNat ≤ 4094 ∧ r.idx.toNat = 18 + r.hexlen.toNat)

/-- The length word a decoder is past has been accepted: its nibble checksum matches and `N` is even
(R170). -/
def LengthAccepted (d : DecUnit) : Prop := lengthFieldCheck d.len = some (lenid d.len) ∧ decN d % 2 = 0

/-- `D_POS` is where `D_PHASE` says it is, and `D_PLEN` counts the payload bytes written (R15, R166, R171). -/
def DecInRange (d : DecUnit) : Prop :=
  match d.phase with
  | .idle => True
  | .soi => d.pos.toNat = 0 ∧ d.plen.toNat = 0
  | .hdr => 1 ≤ d.pos.toNat ∧ d.pos.toNat ≤ 12 ∧ d.plen.toNat = 0
  | .pay => LengthAccepted d ∧ 13 ≤ d.pos.toNat ∧ d.pos.toNat ≤ 12 + decN d ∧
      d.plen.toNat = (d.pos.toNat - 13) / 2
  | .chk => LengthAccepted d ∧ 13 + decN d ≤ d.pos.toNat ∧ d.pos.toNat ≤ 16 + decN d ∧
      d.plen.toNat = decN d / 2
  | .eoi => LengthAccepted d ∧ d.pos.toNat = 17 + decN d ∧ d.plen.toNat = decN d / 2
  | .ok => LengthAccepted d ∧ d.pos.toNat = 18 + decN d ∧ d.plen.toNat = decN d / 2
  | .fail => d.pos.toNat ≤ 4112

/-- The position counters of every encoder and decoder stay in the ranges of R11 and R166. -/
def PositionsInRange (s : State) : Prop :=
  EncInRange s.enc ∧ EncInRange s.txnEnc ∧ DecInRange s.dec ∧ DecInRange s.txnDec

/-- In the two read states `T_CNT` counts the reply bytes stored and every one of them stands in `RXBUF`; in
`AwaitingPayload`, `T_N` is the accepted length of the header region (R11, R42, R194, R199). -/
def ReplyStored (s : State) : Prop :=
  (s.txn.state = .awaitingHeader → s.txn.cnt.toNat ≤ 18 ∧
    ∀ k < s.txn.cnt.toNat, (Memory.read s.rxbuf k).isSome = true) ∧
  (s.txn.state = .awaitingPayload → 18 ≤ s.txn.cnt.toNat ∧ s.txn.cnt.toNat ≤ 18 + s.txn.n.toNat ∧
    (∀ k < s.txn.cnt.toNat, (Memory.read s.rxbuf k).isSome = true) ∧
    headerLength (rxBytes s 18) = .ok s.txn.n)

/-- The 22 characters of the alphabet: word, byte, nibble (R70, R71, `opcode_table.json`). -/
def hexRows : List (Instr × Byte × Nibble) :=
  [(.hexchar0, 0x30, 0),
   (.hexchar1, 0x31, 1),
   (.hexchar2, 0x32, 2),
   (.hexchar3, 0x33, 3),
   (.hexchar4, 0x34, 4),
   (.hexchar5, 0x35, 5),
   (.hexchar6, 0x36, 6),
   (.hexchar7, 0x37, 7),
   (.hexchar8, 0x38, 8),
   (.hexchar9, 0x39, 9),
   (.hexcharUpperA, 0x41, 10),
   (.hexcharUpperB, 0x42, 11),
   (.hexcharUpperC, 0x43, 12),
   (.hexcharUpperD, 0x44, 13),
   (.hexcharUpperE, 0x45, 14),
   (.hexcharUpperF, 0x46, 15),
   (.hexcharLowerA, 0x61, 10),
   (.hexcharLowerB, 0x62, 11),
   (.hexcharLowerC, 0x63, 12),
   (.hexcharLowerD, 0x64, 13),
   (.hexcharLowerE, 0x65, 14),
   (.hexcharLowerF, 0x66, 15)]

/-- A channel cycle that takes an offered byte and does nothing else. -/
def taking : ChanCycle := { ChanCycle.quiet with txReady := true }

/-- A channel cycle in which these bytes arrive and nothing else happens. -/
def delivering (bytes : List Byte) : ChanCycle := { ChanCycle.quiet with arrive := bytes }

/-- A channel cycle in which `tick` pulses and nothing else happens. -/
def ticking : ChanCycle := { ChanCycle.quiet with tick := true }

/-- The sum of the four nibbles of a length word (R123). -/
def nibbleSum (w : U16) : Nat := w.toNat / 4096 + w.toNat / 256 % 16 + w.toNat / 16 % 16 + w.toNat % 16

/-- The transaction is waiting for bytes of a read (R206). -/
def Reading (t : TxnRegs) : Prop :=
  t.busy = true ∧
    ((t.state = .awaitingHeader ∧ t.cnt.toNat < 18) ∨ (t.state = .awaitingPayload ∧ t.cnt.toNat < 18 + t.n.toNat))

/-- The character of a hex digit, as a number (R9 `hex_char`). -/
def hexCharOf (d : Nat) : Byte := BitVec.ofNat 8 (if d ≤ 9 then 0x30 + d else 0x37 + d)

/-- The value of a character, where it is a hex digit (R9 `is_hex`, `nib_val`; R71). -/
def hexValue (c : Byte) : Option Nat :=
  let x := c.toNat
  if 0x30 ≤ x ∧ x ≤ 0x39 then some (x - 0x30)
  else if 0x41 ≤ x ∧ x ≤ 0x46 then some (x - 0x37)
  else if 0x61 ≤ x ∧ x ≤ 0x66 then some (x - 0x57)
  else none

/-- The number that characters spell, most significant digit first; no value if any of them is no digit (R82,
R107). -/
def hexValues (cs : List Byte) : Option Nat :=
  cs.foldl (fun acc c => match acc, hexValue c with | some a, some v => some (16 * a + v) | _, _ => none) (some 0)

/-- `length_checksum` in its closed form (R120). -/
def nibbleCheck (n : Nat) : Nat := (16 - (n / 256 + n / 16 % 16 + n % 16) % 16) % 16

/-- `neg16` of a sum, as a number (R127). -/
def checksumOf (bytes : List Byte) : Nat := (65536 - sumBytes bytes % 65536) % 65536

/-- An uppercase copy of a character (R109 (c)). -/
def upperCase (c : Byte) : Byte := if 0x61 ≤ c.toNat ∧ c.toNat ≤ 0x66 then c - 0x20 else c

/-- Encoder registers after `enc_start` with these operands (R145, R141). -/
def encStarted (adr fn : Byte) (plen : U16) (r : EncRegs) : EncRegs :=
  if 15 < adr.toNat then { r with adr := adr, fn := fn, idx := 0, acc := 0, err := some .invalidAddress, phase := .fail }
  else if 4095 < 2 * plen.toNat then
    { r with adr := adr, fn := fn, idx := 0, acc := 0, err := some .payloadTooLarge, phase := .fail }
  else { adr := adr, fn := fn, idx := 0, acc := 0, err := none, hexlen := BitVec.ofNat 12 (2 * plen.toNat), phase := .emit }

/-- Encoder registers after `enc_emit` of the byte `b` (R145). -/
def encEmitted (b : Byte) (r : EncRegs) : EncRegs :=
  { r with
    acc := if 1 ≤ r.idx.toNat ∧ r.idx.toNat ≤ 12 + r.hexlen.toNat then r.acc + b.setWidth 16 else r.acc
    phase := if r.idx.toNat = 17 + r.hexlen.toNat then .done else r.phase
    idx := r.idx + 1 }

/-- The byte an encoder offers (R144, R145). -/
def encOffered (s : State) (r : EncRegs) : Byte :=
  encByteAt (fun i => Memory.valueAt 0 s.epoch s.pbuf i) r.adr r.fn r.hexlen (-r.acc) r.idx.toNat

/-- A decoder that failed with `e`, its position kept (R166) and no byte of its `RPBUF` left with a value
(R177). -/
def decFailed (e : ErrorName) (d : DecUnit) : DecUnit := { d with phase := .fail, err := some e, rpbuf := [] }

/-- No byte of a buffer has a value (R177, D32). -/
def NoValues (m : Memory) : Prop := ∀ k, Memory.read m k = none

/-- A transaction that failed with `e` (R190 `fail`, R199). -/
def txnFailed (e : ErrorName) (t : TxnRegs) : TxnRegs := { t with err := some e, state := .failed, busy := false }

/-- The list `raw` stands at the front of a buffer. -/
def Stored (m : Memory) (raw : List Byte) : Prop := ∀ k < raw.length, Memory.read m k = raw[k]?

/-- `raw` begins with a valid frame whose declared length is `n` (R162: the five invariants, an even `n`, and no
early end). -/
def Accepted (raw : List Byte) (n : Nat) : Prop :=
  n < 4096 ∧ n % 2 = 0 ∧ 18 + n ≤ raw.length ∧
  raw[0]? = some 0x7E ∧ raw[17 + n]? = some 0x0D ∧
  hexValues ((raw.drop 9).take 4) = some (4096 * nibbleCheck n + n) ∧
  (∀ i, 1 ≤ i → i ≤ 16 + n → ∃ c, raw[i]? = some c ∧ hexValue c ≠ none) ∧
  hexValues ((raw.drop (13 + n)).take 4) = some (checksumOf ((raw.drop 1).take (12 + n)))

/-- The word of an error code (R231). -/
def errorWord : ErrorName → Instr
  | .ioError => .errIoError
  | .responseTimeout => .errResponseTimeout
  | .invalidHexDigit => .errInvalidHexDigit
  | .lengthChecksumMismatch => .errLengthChecksumMismatch
  | .checksumMismatch => .errChecksumMismatch
  | .malformedFrame => .errMalformedFrame
  | .invalidAddress => .errInvalidAddress
  | .payloadTooLarge => .errPayloadTooLarge
  | .truncatedFrame => .errTruncatedFrame

/-- The transaction's next cycle does not end an exchange with `e`. `TruncatedFrame` is `Decode`'s alone (R240). -/
def TxnRaisesNo (e : ErrorName) (s : State) : Prop :=
  e = .truncatedFrame ∨ ∀ t, exec (stateWord s.txn.state) s = .next t → s.txn.busy = true → t.txn.busy = false →
    t.txn.err ≠ some e

/-- The decoder is in a phase that accepts bytes (R166). -/
def Accepting (d : DecUnit) : Prop :=
  d.phase = .soi ∨ d.phase = .hdr ∨ d.phase = .pay ∨ d.phase = .chk ∨ d.phase = .eoi

/-- The stand-alone decoder's next cycle at these port levels does not fail a decode with `e`: it is at rest, or it
starts, or what the byte on offer (if any) does to it is no failure with `e` and no end follows that would be
(R174, R176). -/
def DecRaisesNo (e : ErrorName) (s : State) : Prop :=
  let d := if s.ports.deInValid = true then decByte s.ports.deInData s.dec else s.dec
  ¬ Accepting s.dec ∨ s.ports.deStart = true ∨ (d.phase = .fail ∧ d.err ≠ some e) ∨
    (d.phase ≠ .fail ∧ (s.ports.deInEnd = false ∨ ¬ Accepting d ∨ e ≠ .truncatedFrame))

/-- The stand-alone encoder's next cycle at these port levels refuses no encode with `e` (R141, R145). -/
def EncRaisesNo (e : ErrorName) (s : State) : Prop :=
  s.ports.enStart = false ∨ s.enc.phase = .emit ∨ s.ports.enAbort = true ∨
    ((e = .invalidAddress → s.ports.enAddr.toNat ≤ 15) ∧
      (e = .payloadTooLarge → 15 < s.ports.enAddr.toNat ∨ s.ports.enPlen.toNat ≤ 2047))

/-- No leaf block shows `e` at these levels (R234, R235, R236). -/
def LeafRaisesNo (e : ErrorName) (s : State) : Prop :=
  (e = .invalidHexDigit → (leafOutputs s).hxDecErr = false) ∧
  (e = .lengthChecksumMismatch → (leafOutputs s).lcOk = true) ∧
  (e = .checksumMismatch → (s.acc.toNat + s.ports.acRx.toNat) % 65536 = 0)

/-- The environment's last cycle in an exchange that started before `future` and left `rest` of it: the exchange
ended in it, or the environment has been quiet since. -/
def LastCycle (future rest : List ChanCycle) (c : ChanCycle) : Prop := ∃ cs, future = cs ++ c :: rest

/-- The bytes that arrive in these cycles. -/
def arrivals (cycles : List ChanCycle) : List Byte := (cycles.map ChanCycle.arrive).flatten

/-- R48: between `future` and `rest` a read that started after the cycles `before` had `timeout` ticks, and of the
bytes that came since the flush (in the first cycle) fewer than `wanted` were there. -/
def DeadlineMissed (future rest before : List ChanCycle) (timeout wanted : Nat) : Prop :=
  ∃ during, future = before ++ during ++ rest ∧ timeout ≤ (during.filter ChanCycle.tick).length ∧
    (arrivals ((before ++ during).drop 1)).length < wanted

/-- How many bytes have been stored when the current read is complete (R204). -/
def readLimit (t : TxnRegs) : Nat := if t.state = .awaitingHeader then 18 else 18 + t.n.toNat

/-- `w` is a word of the stand-alone blocks: an operation other than `execute`, a character, a frame field or the
length word. -/
def StandAlone (i : Instr) : Prop :=
  (encodeWord i).1 ≠ .errorCode ∧ (encodeWord i).1 ≠ .stateCode ∧ i ≠ .execute

/-- The bytes of a read's answer. -/
def answerBytes : ReadAnswer → List Byte
  | .bytes b => b
  | .timeout | .ioError => []

/-- What the caller sees of a transaction: `t_busy`, `t_done`, `t_ok`, `t_err`, `t_state`, `t_status`, `t_rplen`,
`t_ver`, `t_radr`, `t_dev` (R205), and the result. -/
def callerView (s : State) : (Bool × Bool × Bool × BitVec 4 × BitVec 3) × (Byte × BitVec 11 × Byte × Byte × Byte) ×
    Option Result :=
  let o := txnOutputs s
  ((o.busy, o.done, o.ok, o.err, o.state), (o.status, o.rplen, o.ver, o.radr, o.dev), s.result)

/-- Every register of every block at its reset value, and no byte of any buffer with a value (R21). -/
def RegistersAtReset (s : State) : Prop :=
  s.acc = 0 ∧
  (∀ r, r = s.enc ∨ r = s.txnEnc →
    r.phase = .idle ∧ r.idx = 0 ∧ r.adr = 0 ∧ r.fn = 0 ∧ r.hexlen = 0 ∧ r.acc = 0 ∧ r.err = none) ∧
  (∀ d, d = s.dec ∨ d = s.txnDec →
    d.phase = .idle ∧ d.pos = 0 ∧ d.acc = 0 ∧ d.hi = 0 ∧ d.ver = 0 ∧ d.adr = 0 ∧ d.dev = 0 ∧ d.fn = 0 ∧ d.len = 0 ∧
    d.chk = 0 ∧ d.plen = 0 ∧ d.err = none ∧ ∀ k, Memory.read d.rpbuf k = none) ∧
  (s.txn.state = .idle ∧ s.txn.busy = false ∧ s.txn.adr = 0 ∧ s.txn.fn = 0 ∧ s.txn.reqlen = 0 ∧ s.txn.timeout = 0 ∧
    s.txn.timer = 0 ∧ s.txn.cnt = 0 ∧ s.txn.n = 0 ∧ s.txn.err = none ∧ s.txn.status = 0 ∧ s.txn.rplen = 0 ∧
    s.txn.ver = 0 ∧ s.txn.radr = 0 ∧ s.txn.dev = 0) ∧
  (∀ k, Memory.read s.pbuf k = none ∧ Memory.read s.rxbuf k = none)

/-- Every `valid`, `ready`, `done`, `ok` and `ch_flush` output of the registered blocks is low (R260). -/
def HandshakesLow (o : Outputs) : Prop :=
  o.enc.outValid = false ∧ o.enc.done = false ∧ o.enc.ok = false ∧ o.dec.inReady = false ∧ o.dec.done = false ∧
  o.dec.ok = false ∧ o.txn.done = false ∧ o.txn.ok = false ∧ o.txn.chFlush = false ∧ o.txn.txValid = false ∧
  o.txn.rxReady = false

/-- Every result output of the decoder and the transaction reads 0, `RPBUF` shows no result, and no byte is written
to it (R176, R177, R205, R272). -/
def ResultsZero (o : Outputs) : Prop :=
  o.dec.status = 0 ∧ o.dec.ver = 0 ∧ o.dec.adr = 0 ∧ o.dec.dev = 0 ∧ o.dec.plen = 0 ∧ o.dec.pbWrite = none ∧
  o.txn.status = 0 ∧ o.txn.rplen = 0 ∧ o.txn.ver = 0 ∧ o.txn.radr = 0 ∧ o.txn.dev = 0 ∧ o.txn.rpData = none

end Sys2Proof.Safety
end

