-- ==== Sys2Proof/WellFormed.lean ====
section
/-! DEFINITION. When a word of the table is one a correct sender could put in its place (R83 lists what is
illegal on receive). An ill-formed word still has a meaning: the hardware answers it with an error. -/

namespace Sys2Proof

/-- The four characters are hex digits and their length word passes its nibble checksum with an even `N`
(R74, R77, R170). -/
def wellFormedLength (c0 c1 c2 c3 : Byte) : Bool :=
  match (Machine.decodeU16 c0 c1 c2 c3).bind Machine.lengthFieldCheck with
  | some l => l.toNat % 2 == 0
  | none => false

/-- Well-formedness of a word: every character of a hex field is a hex digit (R71, R74); a length field and the
length word keep the nibble checksum (R77); a payload field has an even count of at most 4094 (R73, R78). -/
def wellFormed : Instr → Bool
  | .frameVer c0 c1 | .frameAdr c0 c1 | .frameDev c0 c1 | .frameFn c0 c1 => Machine.isHex c0 && Machine.isHex c1
  | .frameLength c0 c1 c2 c3 => wellFormedLength c0 c1 c2 c3
  | .frameInfo chars => chars.all Machine.isHex && chars.length % 2 == 0 && decide (chars.length ≤ 4094)
  | .frameChksum c0 c1 c2 c3 => Machine.isHex c0 && Machine.isHex c1 && Machine.isHex c2 && Machine.isHex c3
  | .lengthWord k l => k == Machine.lengthChecksum l
  | .encodeNibble | .encodeByte | .encodeU16 | .decodeNibble | .decodeByte | .decodeU16 | .lengthChecksum
  | .lengthFieldBuild | .lengthFieldCheck | .frameChecksum | .frameChecksumVerify | .encode | .decode | .execute
  | .hexchar0 | .hexchar1 | .hexchar2 | .hexchar3 | .hexchar4 | .hexchar5 | .hexchar6 | .hexchar7 | .hexchar8
  | .hexchar9 | .hexcharUpperA | .hexcharUpperB | .hexcharUpperC | .hexcharUpperD | .hexcharUpperE | .hexcharUpperF
  | .hexcharLowerA | .hexcharLowerB | .hexcharLowerC | .hexcharLowerD | .hexcharLowerE | .hexcharLowerF
  | .frameSoi | .frameEoi
  | .errIoError | .errResponseTimeout | .errInvalidHexDigit | .errLengthChecksumMismatch | .errChecksumMismatch
  | .errMalformedFrame | .errInvalidAddress | .errPayloadTooLarge | .errTruncatedFrame
  | .tStateIdle | .tStateSent | .tStateAwaitingHeader | .tStateAwaitingPayload | .tStateComplete | .tStateFailed => true

end Sys2Proof
end

