-- ==== Sys2Proof/Certificates/Slice0/Obligations.lean ====
section
/-! DEFINITION. The statements for the provers, one `def Obligations.<Name> : Prop` each. -/

open Sys2Proof Sys2Proof.Machine Sys2Proof.Safety

/-! ### hex_codec and the checksums -/

/-- R100, R101, R102: the three encoders complete from every state, and change nothing but the result. -/
def Obligations.HexEncodersWriteHighNibbleFirst : Prop :=
  ∀ s : State,
    let x := s.ports.hxEncIn.toNat
    exec .encodeNibble s = .next { s with result := some (.ok (.chars [hexCharOf (x % 16)])) } ∧
    exec .encodeByte s =
      .next { s with result := some (.ok (.chars [hexCharOf (x / 16 % 16), hexCharOf (x % 16)])) } ∧
    exec .encodeU16 s =
      .next { s with
        result := some (.ok (.chars [hexCharOf (x / 4096), hexCharOf (x / 256 % 16), hexCharOf (x / 16 % 16),
          hexCharOf (x % 16)])) }

/-- R103, R104, R105: the three decoders complete from every state, and change nothing but the result, which is
all or nothing. -/
def Obligations.HexDecodersAreAllOrNothing : Prop :=
  ∀ s : State,
    let c := fun k => BitVec.ofNat 8 (s.ports.hxDecIn.toNat / 256 ^ k)
    let answer := fun (cs : List Byte) (f : Nat → Value) =>
      match hexValues cs with
      | some v => Result.ok (f v)
      | none => Result.err .invalidHexDigit
    exec .decodeNibble s = .next { s with result := some (answer [c 0] fun v => .nibble (BitVec.ofNat 4 v)) } ∧
    exec .decodeByte s = .next { s with result := some (answer [c 1, c 0] fun v => .byte (BitVec.ofNat 8 v)) } ∧
    exec .decodeU16 s =
      .next { s with result := some (answer [c 3, c 2, c 1, c 0] fun v => .u16 (BitVec.ofNat 16 v)) }

/-- R109 (a) to (d): decoding inverts encoding, encoding is injective and uppercase, re-encoding is
upper-casing, and how many inputs decode. -/
def Obligations.HexCodecInversionLaws : Prop :=
  (∀ n : Nibble, decodeNibble (encodeNibble n) = some n) ∧
  (∀ b : Byte, ∃ c0 c1, encodeByte b = [c0, c1] ∧ decodeByte c0 c1 = some b) ∧
  (∀ v : U16, ∃ c0 c1 c2 c3, encodeU16 v = [c0, c1, c2, c3] ∧ decodeU16 c0 c1 c2 c3 = some v) ∧
  (∀ b b' : Byte, encodeByte b = encodeByte b' → b = b') ∧
  (∀ v v' : U16, encodeU16 v = encodeU16 v' → v = v') ∧
  (∀ (b : Byte), ∀ c ∈ encodeByte b, 0x30 ≤ c.toNat ∧ c.toNat ≤ 0x39 ∨ 0x41 ≤ c.toNat ∧ c.toNat ≤ 0x46) ∧
  (∀ (v : U16), ∀ c ∈ encodeU16 v, 0x30 ≤ c.toNat ∧ c.toNat ≤ 0x39 ∨ 0x41 ≤ c.toNat ∧ c.toNat ≤ 0x46) ∧
  (∀ (c0 c1 b : Byte), decodeByte c0 c1 = some b → encodeByte b = [upperCase c0, upperCase c1]) ∧
  (Finset.univ.filter fun p : Byte × Byte => (decodeByte p.1 p.2).isSome).card = 22 * 22 ∧
  (Finset.univ.filter fun q : Byte × Byte × Byte × Byte => (decodeU16 q.1 q.2.1 q.2.2.1 q.2.2.2).isSome).card = 22 ^ 4

/-- R120, R121, R122: the three length operations complete from every state, and change nothing but the
result. -/
def Obligations.LengthOperations : Prop :=
  ∀ s : State,
    let l := s.ports.lcLen.toNat
    let w := s.ports.lcWordIn.toNat
    exec .lengthChecksum s = .next { s with result := some (.ok (.nibble (BitVec.ofNat 4 (nibbleCheck l)))) } ∧
    exec .lengthFieldBuild s =
      .next { s with result := some (.ok (.u16 (BitVec.ofNat 16 (4096 * nibbleCheck l + l)))) } ∧
    exec .lengthFieldCheck s =
      .next { s with
        result := some (if w / 4096 = nibbleCheck (w % 4096) then .ok (.len12 (BitVec.ofNat 12 w))
          else .err .lengthChecksumMismatch) }

/-- R77, R122, and the model's choice of what presenting a length word means (log 1): the word arrives at
`lc_word_in` and is checked. -/
def Obligations.LengthWordIsChecked : Prop :=
  ∀ (k : Nibble) (l : Len12) (s : State),
    exec (.lengthWord k l) s =
      .next { s with
        ports := { s.ports with lcWordIn := BitVec.ofNat 16 (4096 * k.toNat + l.toNat) }
        result := some (if (k.toNat + l.toNat / 256 + l.toNat / 16 % 16 + l.toNat % 16) % 16 = 0
          then .ok (.len12 l) else .err .lengthChecksumMismatch) }

/-- R123 (a) to (d). -/
def Obligations.LengthWordsThatPass : Prop :=
  (∀ l : Len12, lengthFieldCheck (lengthFieldBuild l) = some l) ∧
  (Finset.univ.filter fun w : U16 => (lengthFieldCheck w).isSome).card = 4096 ∧
  (∀ l : Len12, ∃! w, lengthFieldCheck w = some l) ∧
  (∀ w : U16, (lengthFieldCheck w).isSome = true ↔ nibbleSum w % 16 = 0) ∧
  (∀ (w w' : U16) (i : Nat), i < 4 → (∀ j < 4, j ≠ i → w.extractLsb' (4 * j) 4 = w'.extractLsb' (4 * j) 4) →
    (lengthFieldCheck w).isSome = true → w' ≠ w → lengthFieldCheck w' = none) ∧
  (∀ w w' : U16, nibbleSum w % 16 = nibbleSum w' % 16 →
    ((lengthFieldCheck w).isSome = true ↔ (lengthFieldCheck w').isSome = true))

/-- R127, R128: both list operations take the list operand through `ACC` and complete from every state (what is then
left of the operand at its port is the model's, log 5); and the checksum depends only on the sum of the bytes. -/
def Obligations.FrameChecksumOperations : Prop :=
  (∀ s : State,
    let sum := sumBytes s.ports.acBytes
    ∃ left : List Byte,
      exec .frameChecksum s =
        .next { s with
          acc := BitVec.ofNat 16 sum
          ports := { s.ports with acBytes := left }
          result := some (.ok (.u16 (BitVec.ofNat 16 (checksumOf s.ports.acBytes)))) } ∧
      exec .frameChecksumVerify s =
        .next { s with
          acc := BitVec.ofNat 16 sum
          ports := { s.ports with acBytes := left }
          result := some (if (sum + s.ports.acRx.toNat) % 65536 = 0 then .ok .unit else .err .checksumMismatch) }) ∧
  (∀ bytes : List Byte, (sumBytes bytes + (frameChecksum bytes).toNat) % 65536 = 0) ∧
  (∀ bytes bytes' : List Byte, bytes.Perm bytes' → frameChecksum bytes = frameChecksum bytes') ∧
  (∀ (as bs : List Byte) (x y : Byte), x ≠ y → frameChecksum (as ++ x :: bs) ≠ frameChecksum (as ++ y :: bs))

/-- R108, R131: the ports of the leaf blocks at every level of their inputs, and `ACC` over a clock edge: reset, then
clear, then add. -/
def Obligations.LeafBlockPorts : Prop :=
  (∀ s : State,
    let o := leafOutputs s
    let x := s.ports.hxEncIn.toNat
    let c := fun k => BitVec.ofNat 8 (s.ports.hxDecIn.toNat / 256 ^ k)
    let v := hexValues (if s.ports.hxDecSel = 0 then [c 0] else if s.ports.hxDecSel = 1 then [c 1, c 0]
      else [c 3, c 2, c 1, c 0])
    o.hxEncOut.toNat = (hexCharOf (x / 4096)).toNat * 2 ^ 24 + (hexCharOf (x / 256 % 16)).toNat * 2 ^ 16 +
      (hexCharOf (x / 16 % 16)).toNat * 2 ^ 8 + (hexCharOf (x % 16)).toNat ∧
    o.hxDecErr = v.isNone ∧ o.hxDecOut.toNat = v.getD 0) ∧
  (∀ s : State,
    let o := leafOutputs s
    let l := s.ports.lcLen.toNat
    let w := s.ports.lcWordIn.toNat
    o.lcChk.toNat = nibbleCheck l ∧ o.lcWord.toNat = 4096 * nibbleCheck l + l ∧
    o.lcOk = decide (w / 4096 = nibbleCheck (w % 4096)) ∧
    o.lcLenOut.toNat = (if w / 4096 = nibbleCheck (w % 4096) then w % 4096 else 0) ∧
    o.acAcc = s.acc ∧ o.acSum.toNat = (65536 - s.acc.toNat) % 65536) ∧
  (∀ (s : State) (p : InPorts) (rest : List Stimulus), s.script = .clock p :: rest →
    p.pbWe = false ∨ p.pbIdx.toNat < 2047 →
    ∃ t, step s = .next t ∧
      t.acc.toNat = if p.acClear then 0
        else if p.acAdd then (s.acc.toNat + p.acByte.toNat) % 65536 else s.acc.toNat) ∧
  (∀ (s : State) (p : InPorts) (rest : List Stimulus), s.script = .reset p :: rest →
    ∃ t, step s = .next t ∧ t.acc = 0)

/-! ### frame_encoder -/

/-- R140, R145: with legal operands `Encode` completes; its consumer takes exactly the frame, and the registers are
those of a finished encode. The bytes taken and the result are kept as log 6 says, and that `en_start`, `en_out_ready`
and `en_abort` play no part in the word, whatever levels they are held at, is the model's choice (log 32). -/
def Obligations.EncodeEmitsTheFrame : Prop :=
  ∀ s : State, s.enc.phase ≠ .emit → s.ports.enAddr.toNat ≤ 15 → s.ports.enPlen.toNat ≤ 2047 →
    ∃ frame, encodeFrame s.ports.enAddr s.ports.enFn (encodePayload s) = .ok frame ∧
      exec .encode s =
        .next { s with
          enc := {
            phase := .done
            idx := BitVec.ofNat 13 (18 + 2 * s.ports.enPlen.toNat)
            adr := s.ports.enAddr
            fn := s.ports.enFn
            hexlen := BitVec.ofNat 12 (2 * s.ports.enPlen.toNat)
            acc := BitVec.ofNat 16 (sumBytes ((frame.drop 1).take (12 + 2 * s.ports.enPlen.toNat)))
            err := none }
          enTaken := frame
          result := some (.ok (.frame frame)) }

/-- R141, R145, R147: the two refusals in their order, with nothing emitted; a start while emitting is ignored. The
bytes taken and the result are kept as log 6 says, and that the level held on `en_abort` plays no part in the word is
the model's choice (log 32). -/
def Obligations.EncodeRefusals : Prop :=
  ∀ s : State,
    (s.enc.phase = .emit → exec .encode s = .next s) ∧
    (s.enc.phase ≠ .emit → 15 < s.ports.enAddr.toNat →
      exec .encode s =
        .next { s with
          enc := { s.enc with
            phase := .fail, idx := 0, adr := s.ports.enAddr, fn := s.ports.enFn, acc := 0
            err := some .invalidAddress }
          enTaken := []
          result := some (.err .invalidAddress) }) ∧
    (s.enc.phase ≠ .emit → s.ports.enAddr.toNat ≤ 15 → 2047 < s.ports.enPlen.toNat →
      exec .encode s =
        .next { s with
          enc := { s.enc with
            phase := .fail, idx := 0, adr := s.ports.enAddr, fn := s.ports.enFn, acc := 0
            err := some .payloadTooLarge }
          enTaken := []
          result := some (.err .payloadTooLarge) })

/-- R141, R142: which operands give a frame and which error, and every byte of the frame. -/
def Obligations.EncodedFrameLayout : Prop :=
  ∀ (a f : Byte) (p : List Byte),
    (15 < a.toNat → encodeFrame a f p = .err .invalidAddress) ∧
    (a.toNat ≤ 15 → 2047 < p.length → encodeFrame a f p = .err .payloadTooLarge) ∧
    (a.toNat ≤ 15 → p.length ≤ 2047 →
      ∃ frame, encodeFrame a f p = .ok frame ∧
        let n := 2 * p.length
        let c := checksumOf ((frame.drop 1).take (12 + n))
        frame.length = 18 + n ∧
        frame.take 13 = [0x7E, 0x32, 0x30, 0x30, hexCharOf a.toNat, 0x34, 0x36, hexCharOf (f.toNat / 16),
          hexCharOf (f.toNat % 16), hexCharOf (nibbleCheck n), hexCharOf (n / 256), hexCharOf (n / 16 % 16),
          hexCharOf (n % 16)] ∧
        (∀ (i : Nat) (b : Byte), p[i]? = some b →
          frame[13 + 2 * i]? = some (hexCharOf (b.toNat / 16)) ∧
          frame[14 + 2 * i]? = some (hexCharOf (b.toNat % 16))) ∧
        frame.drop (13 + n) = [hexCharOf (c / 4096), hexCharOf (c / 256 % 16), hexCharOf (c / 16 % 16),
          hexCharOf (c % 16), 0x0D] ∧
        (∀ x ∈ (frame.drop 1).take (16 + n), ∃ d < 16, x = hexCharOf d))

/-- R74: every field of an encoded frame, cut out at its offset, is a well-formed word of that field. -/
def Obligations.FrameFieldsAreWords : Prop :=
  ∀ (a f : Byte) (p frame : List Byte), encodeFrame a f p = .ok frame →
    ∀ fld : Field, ∃ i,
      wellFormed i = true ∧
      encodeWord i = (.field fld,
        (frame.drop (fieldOffset (2 * p.length) fld)).take (fieldWidth (2 * p.length) fld)) ∧
      decodeWord (encodeWord i).1 (encodeWord i).2 = .instr i

/-- R145: `enc_start`, `enc_emit` and `enc_abort` of the stand-alone encoder over one clock edge. An abort comes
last in its cycle (log 16). -/
def Obligations.EncoderClockCycle : Prop :=
  ∀ (s : State) (p : InPorts) (rest : List Stimulus), s.script = .clock p :: rest → p.pbWe = false →
    ∃ t, step s = .next t ∧
      (p.enAbort = true → t.enc.phase = .idle) ∧
      (p.enAbort = false → s.enc.phase ≠ .emit → p.enStart = true →
        t.enc = encStarted p.enAddr p.enFn p.enPlen s.enc ∧ t.enTaken = []) ∧
      (p.enAbort = false → s.enc.phase ≠ .emit → p.enStart = false → t.enc = s.enc ∧ t.enTaken = s.enTaken) ∧
      (p.enAbort = false → s.enc.phase = .emit → p.enOutReady = true →
        t.enc = encEmitted (encOffered s s.enc) s.enc ∧ t.enTaken = s.enTaken ++ [encOffered s s.enc]) ∧
      (p.enAbort = false → s.enc.phase = .emit → p.enOutReady = false → t.enc = s.enc ∧ t.enTaken = s.enTaken)

/-! ### frame_decoder -/

/-- R175: `Decode` on the list operand performs what the functional level says, with the registers, the offset of
the failing check, the bytes left with the producer after an accepted frame, and the payload in `RPBUF`; after a
refusal no byte of `RPBUF` has a value (R177). The list at its port, the bytes left there, the result kept and the levels
of `de_start`, `de_in_valid` and `de_in_end`, which play no part, are as log 5, log 6, log 11 and log 32 have them. -/
def Obligations.DecodeAgreesWithFunction : Prop :=
  ∀ s : State, ∃ (d : DecUnit) (left : List Byte) (r : Result),
    exec .decode s = .next { s with dec := d, ports := { s.ports with deBytes := left }, result := some r } ∧
    match decodeFrame s.ports.deBytes with
    | .ok reply n =>
      r = .ok (.reply reply) ∧ left = s.ports.deBytes.drop n ∧ d.phase = .ok ∧ d.err = none ∧ d.pos.toNat = n ∧
      d.ver = reply.version ∧ d.adr = reply.address ∧ d.dev = reply.deviceType ∧ d.fn = reply.status ∧
      d.plen.toNat = reply.payload.length ∧ Stored d.rpbuf reply.payload ∧
      ∀ k, d.plen.toNat ≤ k → Memory.read d.rpbuf k = Memory.read s.dec.rpbuf k
    | .err e pos =>
      r = .err e ∧ left <:+ s.ports.deBytes ∧ d.phase = .fail ∧ d.err = some e ∧ d.pos.toNat = pos ∧ NoValues d.rpbuf

/-- R162, R165, R178: exactly the frames that keep the invariants are accepted, with these results, and bytes after
the frame play no part. -/
def Obligations.DecodeAcceptsExactlyValidFrames : Prop :=
  ∀ raw : List Byte,
    (∀ n, Accepted raw n →
      ∃ reply, decodeFrame raw = .ok reply (18 + n) ∧
        hexValues ((raw.drop 1).take 2) = some reply.version.toNat ∧
        hexValues ((raw.drop 3).take 2) = some reply.address.toNat ∧
        hexValues ((raw.drop 5).take 2) = some reply.deviceType.toNat ∧
        hexValues ((raw.drop 7).take 2) = some reply.status.toNat ∧
        reply.payload.length = n / 2 ∧
        ∀ (i : Nat) (b : Byte), reply.payload[i]? = some b →
          hexValues ((raw.drop (13 + 2 * i)).take 2) = some b.toNat) ∧
    (∀ reply m, decodeFrame raw = .ok reply m → ∃ n, Accepted raw n ∧ m = 18 + n) ∧
    (∀ reply m more, decodeFrame raw = .ok reply m → decodeFrame (raw.take m ++ more) = .ok reply m)

/-- R148 (a) to (d). -/
def Obligations.DecodeInvertsEncode : Prop :=
  (∀ (a f : Byte) (p frame : List Byte), encodeFrame a f p = .ok frame →
    frame.length = 18 + 2 * p.length ∧
    decodeFrame frame =
      .ok { version := 0x20, address := a, deviceType := 0x46, status := f, payload := p } (18 + 2 * p.length) ∧
    lengthFieldCheck (wordAt frame 9) = some (BitVec.ofNat 12 (2 * p.length))) ∧
  (∀ (a f : Byte) (p : List Byte), a.toNat ≤ 15 → p.length ≤ 2047 → ∃ frame, encodeFrame a f p = .ok frame) ∧
  (∀ (a f a' f' : Byte) (p p' frame : List Byte), encodeFrame a f p = .ok frame → encodeFrame a' f' p' = .ok frame →
    a = a' ∧ f = f' ∧ p = p')

/-- R179 (b), (c), (e): replacing one character of an accepted frame by another hex character. -/
def Obligations.ChangedHexCharacterIsDetected : Prop :=
  ∀ (raw : List Byte) (n i : Nat) (c old : Byte), Accepted raw n → raw[i]? = some old → c ≠ old →
    hexValue c ≠ none →
    ((1 ≤ i ∧ i ≤ 8) ∨ (13 ≤ i ∧ i ≤ 12 + n) →
      decodeFrame (raw.set i c) = .err .checksumMismatch (16 + n)) ∧
    (9 ≤ i ∧ i ≤ 12 → hexValue c ≠ hexValue old →
      decodeFrame (raw.set i c) = .err .lengthChecksumMismatch 12) ∧
    (9 ≤ i ∧ i ≤ 12 → hexValue c = hexValue old →
      decodeFrame (raw.set i c) = .err .checksumMismatch (16 + n)) ∧
    (13 + n ≤ i ∧ i ≤ 16 + n → hexValue c ≠ hexValue old →
      decodeFrame (raw.set i c) = .err .checksumMismatch (16 + n))

/-- R179 (a), (d), (f): a byte that is no hex digit, a bad marker, and an early end. -/
def Obligations.DamagedFrameIsDetected : Prop :=
  ∀ (raw : List Byte) (n : Nat), Accepted raw n →
    (∀ (i : Nat) (c : Byte), 1 ≤ i → i ≤ 16 + n → hexValue c = none →
      decodeFrame (raw.set i c) = .err .invalidHexDigit i) ∧
    (∀ c : Byte, c ≠ 0x7E → decodeFrame (raw.set 0 c) = .err .malformedFrame 0) ∧
    (∀ c : Byte, c ≠ 0x0D → decodeFrame (raw.set (17 + n) c) = .err .malformedFrame (17 + n)) ∧
    (∀ k, k < 18 + n → decodeFrame (raw.take k) = .err .truncatedFrame k)

/-- R167, R174: `dec_start` and `dec_end` of the stand-alone decoder over one clock edge; a byte in the cycle of the
end is consumed first (R176). -/
def Obligations.DecoderStartAndEnd : Prop :=
  ∀ (s : State) (p : InPorts) (rest : List Stimulus), s.script = .clock p :: rest →
    p.pbWe = false ∨ p.pbIdx.toNat < 2047 →
    ∃ t, step s = .next t ∧
      (p.deStart = true → p.deInEnd = false →
        t.dec = { phase := .soi, pos := 0, acc := 0, hi := 0, ver := 0, adr := 0, dev := 0, fn := 0, len := 0, chk := 0,
                  plen := 0, err := none, rpbuf := s.dec.rpbuf }) ∧
      (p.deStart = false → p.deInEnd = true →
        let d := if p.deInValid = true then decByte p.deInData s.dec else s.dec
        t.dec = if d.phase = .soi ∨ d.phase = .hdr ∨ d.phase = .pay ∨ d.phase = .chk ∨ d.phase = .eoi
          then decFailed .truncatedFrame d else d) ∧
      (p.deStart = false → p.deInEnd = false → p.deInValid = false → t.dec = s.dec) ∧
      (s.dec.phase = .idle ∨ s.dec.phase = .ok ∨ s.dec.phase = .fail → p.deStart = false → t.dec = s.dec)

/-- R168 to R173: `dec_byte(c)` of the stand-alone decoder over one clock edge, for every byte in every phase that
accepts one. -/
def Obligations.DecoderByteSteps : Prop :=
  ∀ (s : State) (p : InPorts) (rest : List Stimulus), s.script = .clock p :: rest →
    p.pbWe = false ∨ p.pbIdx.toNat < 2047 → p.deStart = false → p.deInEnd = false → p.deInValid = true →
    let d := s.dec
    let c := p.deInData
    let k := d.pos.toNat
    ∃ t, step s = .next t ∧
      (d.phase = .soi →
        t.dec = if c = 0x7E then { d with phase := .hdr, pos := d.pos + 1 } else decFailed .malformedFrame d) ∧
      (d.phase = .eoi →
        t.dec = if c = 0x0D then { d with phase := .ok, pos := d.pos + 1 } else decFailed .malformedFrame d) ∧
      (d.phase = .hdr ∨ d.phase = .pay ∨ d.phase = .chk → hexValue c = none → t.dec = decFailed .invalidHexDigit d) ∧
      (∀ x, hexValue c = some x →
        let v := BitVec.ofNat 4 x
        let n := d.len.toNat % 4096
        let sum := d.acc + c.setWidth 16
        (d.phase = .hdr →
          let w : U16 := d.len.extractLsb' 0 12 ++ v
          (1 ≤ k ∧ k ≤ 11 →
            t.dec = { d with
              pos := d.pos + 1
              acc := sum
              hi := if k = 1 ∨ k = 3 ∨ k = 5 ∨ k = 7 then v else d.hi
              ver := if k = 2 then d.hi ++ v else d.ver
              adr := if k = 4 then d.hi ++ v else d.adr
              dev := if k = 6 then d.hi ++ v else d.dev
              fn := if k = 8 then d.hi ++ v else d.fn
              len := if 9 ≤ k then w else d.len }) ∧
          (k = 12 →
            t.dec =
              if w.toNat / 4096 ≠ nibbleCheck (w.toNat % 4096) then
                decFailed .lengthChecksumMismatch { d with acc := sum, len := w }
              else if w.toNat % 2 = 1 then decFailed .malformedFrame { d with acc := sum, len := w }
              else { d with acc := sum, len := w, pos := 13, phase := if w.toNat % 4096 = 0 then .chk else .pay })) ∧
        (d.phase = .pay → 13 ≤ k → k ≤ 12 + n →
          let j := k - 13
          ∃ m : Memory,
            t.dec = { d with
              phase := if k = 12 + n then .chk else .pay
              pos := d.pos + 1
              acc := sum
              hi := if j % 2 = 0 then v else d.hi
              plen := if j % 2 = 0 then d.plen else BitVec.ofNat 11 (j / 2 + 1)
              rpbuf := m } ∧
            ∀ i, Memory.read m i = if j % 2 = 1 ∧ i = j / 2 then some (d.hi ++ v) else Memory.read d.rpbuf i) ∧
        (d.phase = .chk →
          let w : U16 := d.chk.extractLsb' 0 12 ++ v
          t.dec =
            if k ≠ 16 + n then { d with chk := w, pos := d.pos + 1 }
            else if (w.toNat + d.acc.toNat) % 65536 = 0 then { d with chk := w, pos := d.pos + 1, phase := .eoi }
            else decFailed .checksumMismatch { d with chk := w }))

/-- R166, R174, R176, and the model's choice of what presenting a character or a field means (log 1): a decoder that
accepts no byte takes none; a character's nibble is still the result. -/
def Obligations.DecoderAtRestTakesNothing : Prop :=
  ∀ s : State, s.dec.phase = .idle ∨ s.dec.phase = .ok ∨ s.dec.phase = .fail →
    (∀ row ∈ hexRows, exec row.1 s = .next { s with result := some (.ok (.nibble row.2.2)) }) ∧
    (∀ (i : Instr) (f : Field), (encodeWord i).1 = .field f → exec i s = .next s)

/-- R168, R173, R164: characters and the two markers in the decoder's marker phases, and a marker among hex digits.
That presenting a word offers its bytes is the model's choice (log 1). -/
def Obligations.MarkersInEveryPhase : Prop :=
  ∀ s : State,
    (s.dec.phase = .soi →
      exec .frameSoi s = .next { s with dec := { s.dec with phase := .hdr, pos := s.dec.pos + 1 } } ∧
      exec .frameEoi s =
        .next { s with dec := decFailed .malformedFrame s.dec, result := some (.err .malformedFrame) }) ∧
    (s.dec.phase = .hdr ∨ s.dec.phase = .pay ∨ s.dec.phase = .chk →
      exec .frameSoi s =
        .next { s with dec := decFailed .invalidHexDigit s.dec, result := some (.err .invalidHexDigit) } ∧
      exec .frameEoi s =
        .next { s with dec := decFailed .invalidHexDigit s.dec, result := some (.err .invalidHexDigit) }) ∧
    (s.dec.phase = .eoi →
      exec .frameSoi s =
        .next { s with dec := decFailed .malformedFrame s.dec, result := some (.err .malformedFrame) } ∧
      ∀ payload : List Byte, payload.length = s.dec.plen.toNat → Stored s.dec.rpbuf payload →
        exec .frameEoi s =
          .next { s with
            dec := { s.dec with phase := .ok, pos := s.dec.pos + 1 }
            result := some (.ok (.reply {
              version := s.dec.ver
              address := s.dec.adr
              deviceType := s.dec.dev
              status := s.dec.fn
              payload := payload })) }) ∧
    (s.dec.phase = .soi ∨ s.dec.phase = .eoi →
      ∀ row ∈ hexRows,
        exec row.1 s =
          .next { s with dec := decFailed .malformedFrame s.dec, result := some (.ok (.nibble row.2.2)) })

/-- R169, R170: each of the 22 characters as a header digit, at every header offset. That presenting a character
offers it to the decoder is the model's choice (log 1). -/
def Obligations.CharactersInTheHeader : Prop :=
  ∀ (s : State) (i : Instr) (c : Byte) (v : Nibble), (i, c, v) ∈ hexRows → s.dec.phase = .hdr →
    let p := s.dec.pos.toNat
    let w : U16 := s.dec.len.extractLsb' 0 12 ++ v
    let n := w.toNat % 4096
    (1 ≤ p ∧ p ≤ 11 →
      exec i s =
        .next { s with
          dec := { s.dec with
            pos := s.dec.pos + 1
            acc := s.dec.acc + c.setWidth 16
            hi := if p = 1 ∨ p = 3 ∨ p = 5 ∨ p = 7 then v else s.dec.hi
            ver := if p = 2 then s.dec.hi ++ v else s.dec.ver
            adr := if p = 4 then s.dec.hi ++ v else s.dec.adr
            dev := if p = 6 then s.dec.hi ++ v else s.dec.dev
            fn := if p = 8 then s.dec.hi ++ v else s.dec.fn
            len := if 9 ≤ p then w else s.dec.len }
          result := some (.ok (.nibble v)) }) ∧
    (p = 12 →
      exec i s =
        .next { s with
          dec :=
            (if w.toNat / 4096 ≠ nibbleCheck n then
              decFailed .lengthChecksumMismatch { s.dec with acc := s.dec.acc + c.setWidth 16, len := w }
            else if n % 2 = 1 then
              decFailed .malformedFrame { s.dec with acc := s.dec.acc + c.setWidth 16, len := w }
            else
              { s.dec with
                acc := s.dec.acc + c.setWidth 16, len := w, pos := 13, phase := if n = 0 then .chk else .pay })
          result := some (.ok (.nibble v)) })

/-- R171: each of the 22 characters as a payload digit, with the `RPBUF` byte it completes. That presenting a
character offers it to the decoder is the model's choice (log 1). -/
def Obligations.CharactersInThePayload : Prop :=
  ∀ (s : State) (i : Instr) (c : Byte) (v : Nibble), (i, c, v) ∈ hexRows → s.dec.phase = .pay →
    let n := s.dec.len.toNat % 4096
    let j := s.dec.pos.toNat - 13
    13 ≤ s.dec.pos.toNat → s.dec.pos.toNat ≤ 12 + n →
    ∃ m : Memory,
      exec i s =
        .next { s with
          dec := { s.dec with
            phase := if s.dec.pos.toNat = 12 + n then .chk else .pay
            pos := s.dec.pos + 1
            acc := s.dec.acc + c.setWidth 16
            hi := if j % 2 = 0 then v else s.dec.hi
            plen := if j % 2 = 0 then s.dec.plen else BitVec.ofNat 11 (j / 2 + 1)
            rpbuf := m }
          result := some (.ok (.nibble v)) } ∧
      ∀ k, Memory.read m k =
        if j % 2 = 1 ∧ k = j / 2 then some (s.dec.hi ++ v) else Memory.read s.dec.rpbuf k

/-- R172: each of the 22 characters as a checksum digit, with the comparison at the fourth. That presenting a
character offers it to the decoder is the model's choice (log 1). -/
def Obligations.CharactersInTheChecksum : Prop :=
  ∀ (s : State) (i : Instr) (c : Byte) (v : Nibble), (i, c, v) ∈ hexRows → s.dec.phase = .chk →
    let n := s.dec.len.toNat % 4096
    let w : U16 := s.dec.chk.extractLsb' 0 12 ++ v
    exec i s =
      .next { s with
        dec :=
          (if s.dec.pos.toNat = 16 + n then
            (if (w.toNat + s.dec.acc.toNat) % 65536 = 0 then { s.dec with chk := w, pos := s.dec.pos + 1, phase := .eoi }
             else decFailed .checksumMismatch { s.dec with chk := w })
           else { s.dec with chk := w, pos := s.dec.pos + 1 })
        result := some (.ok (.nibble v)) }

/-- R76, R169: the four one-byte fields at their offsets, with good digits, a bad first and a bad second one. That
presenting a field offers its bytes is the model's choice (log 1). -/
def Obligations.OneByteFields : Prop :=
  ∀ (s : State) (c0 c1 : Byte), s.dec.phase = .hdr →
    (∀ v0 v1, hexValue c0 = some v0 → hexValue c1 = some v1 →
      let after := fun (d : DecUnit) =>
        { d with pos := d.pos + 2, acc := d.acc + c0.setWidth 16 + c1.setWidth 16, hi := BitVec.ofNat 4 v0 }
      let b := BitVec.ofNat 8 (16 * v0 + v1)
      (s.dec.pos = 1 → exec (.frameVer c0 c1) s = .next { s with dec := { after s.dec with ver := b } }) ∧
      (s.dec.pos = 3 → exec (.frameAdr c0 c1) s = .next { s with dec := { after s.dec with adr := b } }) ∧
      (s.dec.pos = 5 → exec (.frameDev c0 c1) s = .next { s with dec := { after s.dec with dev := b } }) ∧
      (s.dec.pos = 7 → exec (.frameFn c0 c1) s = .next { s with dec := { after s.dec with fn := b } })) ∧
    (∀ i ∈ [Instr.frameVer c0 c1, .frameAdr c0 c1, .frameDev c0 c1, .frameFn c0 c1],
      (hexValue c0 = none →
        exec i s = .next { s with dec := decFailed .invalidHexDigit s.dec, result := some (.err .invalidHexDigit) }) ∧
      (∀ v0, hexValue c0 = some v0 → hexValue c1 = none →
        s.dec.pos = 1 ∨ s.dec.pos = 3 ∨ s.dec.pos = 5 ∨ s.dec.pos = 7 →
        exec i s =
          .next { s with
            dec := decFailed .invalidHexDigit { s.dec with
              pos := s.dec.pos + 1, acc := s.dec.acc + c0.setWidth 16, hi := BitVec.ofNat 4 v0 }
            result := some (.err .invalidHexDigit) }))

/-- R77, R169, R170: the length field at offset 9: accepted, refused for its nibble, refused for an odd count, and
refused at its first bad digit. That presenting a field offers its bytes is the model's choice (log 1). -/
def Obligations.LengthField : Prop :=
  ∀ (s : State) (c0 c1 c2 c3 : Byte), s.dec.phase = .hdr → s.dec.pos = 9 →
    (∀ w, hexValues [c0, c1, c2, c3] = some w →
      let d := { s.dec with
        acc := s.dec.acc + c0.setWidth 16 + c1.setWidth 16 + c2.setWidth 16 + c3.setWidth 16
        len := BitVec.ofNat 16 w }
      exec (.frameLength c0 c1 c2 c3) s =
        .next (if w / 4096 ≠ nibbleCheck (w % 4096) then
          { s with
            dec := decFailed .lengthChecksumMismatch { d with pos := 12 }
            result := some (.err .lengthChecksumMismatch) }
        else if w % 2 = 1 then
          { s with dec := decFailed .malformedFrame { d with pos := 12 }, result := some (.err .malformedFrame) }
        else { s with dec := { d with pos := 13, phase := if w % 4096 = 0 then .chk else .pay } })) ∧
    (∀ (k : Nat) (bad : Byte), [c0, c1, c2, c3][k]? = some bad → hexValue bad = none →
      (∀ c ∈ [c0, c1, c2, c3].take k, hexValue c ≠ none) →
      ∃ d : DecUnit,
        exec (.frameLength c0 c1 c2 c3) s = .next { s with dec := d, result := some (.err .invalidHexDigit) } ∧
        d.phase = .fail ∧ d.err = some .invalidHexDigit ∧ d.pos.toNat = 9 + k ∧ NoValues d.rpbuf)

/-- R78, R171: the payload field, all of it, at offset 13: the bytes it leaves in `RPBUF`, or the refusal at its
first bad digit. That presenting a field offers its bytes is the model's choice (log 1). -/
def Obligations.PayloadField : Prop :=
  ∀ (s : State) (chars : List Byte),
    let n := s.dec.len.toNat % 4096
    s.dec.phase = .pay → s.dec.pos = 13 → chars.length = n → n % 2 = 0 → 0 < n →
    ((∀ c ∈ chars, hexValue c ≠ none) →
      ∃ (m : Memory) (hi : Nibble),
        exec (.frameInfo chars) s =
          .next { s with
            dec := { s.dec with
              phase := .chk, pos := BitVec.ofNat 13 (13 + n), acc := s.dec.acc + BitVec.ofNat 16 (sumBytes chars)
              hi := hi, plen := BitVec.ofNat 11 (n / 2), rpbuf := m } } ∧
        ∀ k, Memory.read m k =
          if k < n / 2 then (hexValues ((chars.drop (2 * k)).take 2)).map (BitVec.ofNat 8)
          else Memory.read s.dec.rpbuf k) ∧
    (∀ (k : Nat) (bad : Byte), chars[k]? = some bad → hexValue bad = none →
      (∀ c ∈ chars.take k, hexValue c ≠ none) →
      ∃ d : DecUnit,
        exec (.frameInfo chars) s = .next { s with dec := d, result := some (.err .invalidHexDigit) } ∧
        d.phase = .fail ∧ d.err = some .invalidHexDigit ∧ d.pos.toNat = 13 + k ∧ NoValues d.rpbuf)

/-- R79, R172: the checksum field, all of it: accepted, refused, and refused at its first bad digit. That presenting
a field offers its bytes is the model's choice (log 1). -/
def Obligations.ChecksumField : Prop :=
  ∀ (s : State) (c0 c1 c2 c3 : Byte),
    let n := s.dec.len.toNat % 4096
    s.dec.phase = .chk → s.dec.pos.toNat = 13 + n →
    (∀ w, hexValues [c0, c1, c2, c3] = some w →
      exec (.frameChksum c0 c1 c2 c3) s =
        .next (if (w + s.dec.acc.toNat) % 65536 = 0 then
          { s with dec := { s.dec with phase := .eoi, pos := s.dec.pos + 4, chk := BitVec.ofNat 16 w } }
        else
          { s with
            dec := decFailed .checksumMismatch { s.dec with pos := s.dec.pos + 3, chk := BitVec.ofNat 16 w }
            result := some (.err .checksumMismatch) })) ∧
    (∀ (k : Nat) (bad : Byte), [c0, c1, c2, c3][k]? = some bad → hexValue bad = none →
      (∀ c ∈ [c0, c1, c2, c3].take k, hexValue c ≠ none) →
      ∃ d : DecUnit,
        exec (.frameChksum c0 c1 c2 c3) s = .next { s with dec := d, result := some (.err .invalidHexDigit) } ∧
        d.phase = .fail ∧ d.err = some .invalidHexDigit ∧ d.pos.toNat = 13 + n + k ∧ NoValues d.rpbuf)

/-! ### Errors -/

/-- R232, R233, R206, R48: the two errors of the channel, taken by the transaction in the cycle that shows them; a
timeout consumes the bytes that did arrive, fewer than the read wants (log 29 on where R48 and R206 part). That an
error's word is the event of taking it is the model's choice (log 1, log 27), and so are the channel's cycles (log 8,
log 12, log 18). -/
def Obligations.ChannelErrorsTaken : Prop :=
  ∀ s : State,
    let c := (nextCycle s.chan).1
    let ch := (nextCycle s.chan).2
    (s.txn.busy = true → s.txn.state = .idle → s.txnEnc.phase = .emit → c.txErr = true →
      exec .errIoError s =
        .next { s with
          chan := { ch with out := if c.txReady then ch.out ++ [encOffered s s.txnEnc] else ch.out }
          txnEnc := { (if c.txReady then encEmitted (encOffered s s.txnEnc) s.txnEnc else s.txnEnc) with phase := .idle }
          txn := txnFailed .ioError s.txn
          result := some (.err .ioError) }) ∧
    (Reading s.txn → c.rxErr = true →
      ∃ left : List Byte,
        exec .errIoError s =
          .next { s with
            chan := { ch with inn := left }
            txn := txnFailed .ioError s.txn
            result := some (.err .ioError)
            draws := s.draws + 1 }) ∧
    (Reading s.txn → c.rxErr = false → s.txn.timeout ≤ s.txn.timer →
      s.txn.cnt.toNat + ch.inn.length < readLimit s.txn →
      ∃ m : Memory,
        exec .errResponseTimeout s =
          .next { s with
            chan := { ch with inn := [] }
            rxbuf := m
            txn := txnFailed .responseTimeout { s.txn with cnt := BitVec.ofNat 13 (s.txn.cnt.toNat + ch.inn.length) }
            result := some (.err .responseTimeout) } ∧
        ∀ k, Memory.read m k = if s.txn.cnt.toNat ≤ k ∧ k < s.txn.cnt.toNat + ch.inn.length
          then ch.inn[k - s.txn.cnt.toNat]? else Memory.read s.rxbuf k)

/-- R234 to R237, R240, R244: the five errors of the stand-alone decoder, taken in the cycle whose byte or end shows
them, where the transaction does not raise the same one. That an error's word is the event of taking it is the model's
choice (log 1, log 27). -/
def Obligations.DecoderErrorsTaken : Prop :=
  ∀ s : State, s.ports.deStart = false →
    let c := s.ports.deInData
    let taken := fun (e : ErrorName) (d : DecUnit) =>
      TxnRaisesNo e s → exec (errorWord e) s = .next { s with dec := decFailed e d, result := some (.err e) }
    (s.ports.deInValid = true →
      (s.dec.phase = .soi → c ≠ 0x7E → taken .malformedFrame s.dec) ∧
      (s.dec.phase = .eoi → c ≠ 0x0D → taken .malformedFrame s.dec) ∧
      (s.dec.phase = .hdr ∨ s.dec.phase = .pay ∨ s.dec.phase = .chk → hexValue c = none →
        taken .invalidHexDigit s.dec) ∧
      (∀ v, hexValue c = some v → s.dec.phase = .hdr → s.dec.pos = 12 →
        let w : U16 := s.dec.len.extractLsb' 0 12 ++ BitVec.ofNat 4 v
        let d := { s.dec with acc := s.dec.acc + c.setWidth 16, len := w }
        (w.toNat / 4096 ≠ nibbleCheck (w.toNat % 4096) → taken .lengthChecksumMismatch d) ∧
        (w.toNat / 4096 = nibbleCheck (w.toNat % 4096) → w.toNat % 2 = 1 → taken .malformedFrame d)) ∧
      (∀ v, hexValue c = some v → s.dec.phase = .chk → s.dec.pos.toNat = 16 + s.dec.len.toNat % 4096 →
        let w : U16 := s.dec.chk.extractLsb' 0 12 ++ BitVec.ofNat 4 v
        (w.toNat + s.dec.acc.toNat) % 65536 ≠ 0 → taken .checksumMismatch { s.dec with chk := w })) ∧
    (s.ports.deInEnd = true → (decOutputs false false 0 s.dec).inReady = true →
      (s.ports.deInValid = false → taken .truncatedFrame s.dec) ∧
      (s.ports.deInValid = true → (decOutputs false false 0 (decByte c s.dec)).inReady = true →
        taken .truncatedFrame (decByte c s.dec)))

/-- R234, R235, R236, R238, R239: the errors of the stand-alone encoder's start, and of the leaf blocks, each where no
block asked before raises the same one. That an error's word is the event of taking it is the model's choice (log 1,
log 27). -/
def Obligations.EncoderAndLeafErrorsTaken : Prop :=
  ∀ s : State,
    (s.ports.enStart = true → s.ports.enAbort = false → s.enc.phase ≠ .emit →
      let started := encStarted s.ports.enAddr s.ports.enFn s.ports.enPlen s.enc
      (TxnRaisesNo .invalidAddress s → 15 < s.ports.enAddr.toNat →
        exec .errInvalidAddress s =
          .next { s with enc := started, enTaken := [], result := some (.err .invalidAddress) }) ∧
      (TxnRaisesNo .payloadTooLarge s → s.ports.enAddr.toNat ≤ 15 → 2047 < s.ports.enPlen.toNat →
        exec .errPayloadTooLarge s =
          .next { s with enc := started, enTaken := [], result := some (.err .payloadTooLarge) })) ∧
    (∀ e, TxnRaisesNo e s → DecRaisesNo e s →
      (e = .invalidHexDigit ∧ (leafOutputs s).hxDecErr = true) ∨
        (e = .lengthChecksumMismatch ∧ (leafOutputs s).lcOk = false) ∨
        (e = .checksumMismatch ∧ (s.acc.toNat + s.ports.acRx.toNat) % 65536 ≠ 0) →
      exec (errorWord e) s = .next { s with result := some (.err e) })

/-- R207, R192, R194, R196: the errors of an exchange's encode (T2), of its length field (T4) and of its reply (T6),
taken by the transaction. That an error's word is the event of taking it is the model's choice (log 1, log 27), and so
are the channel's cycles (log 8). -/
def Obligations.ExchangeErrorsTaken : Prop :=
  ∀ s : State, s.txn.busy = true →
    let ch := (nextCycle s.chan).2
    let taken := fun (e : ErrorName) (d : DecUnit) =>
      exec (errorWord e) s =
        .next { s with chan := ch, txnDec := d, txn := txnFailed e s.txn, result := some (.err e) }
    (∀ e, e = .invalidAddress ∨ e = .payloadTooLarge → s.txn.state = .idle → s.txnEnc.phase = .fail →
      s.txnEnc.err = some e → taken e s.txnDec) ∧
    (∀ h : List Byte, s.txn.state = .awaitingHeader → 18 ≤ s.txn.cnt.toNat → h.length = 4 →
      (∀ k < 4, Memory.read s.rxbuf (9 + k) = h[k]?) →
      (hexValues h = none → taken .invalidHexDigit s.txnDec) ∧
      (∀ w, hexValues h = some w → w / 4096 ≠ nibbleCheck (w % 4096) → taken .lengthChecksumMismatch s.txnDec)) ∧
    (∀ (raw : List Byte) (e : ErrorName) (pos : Nat), s.txn.state = .awaitingPayload →
      raw.length = 18 + s.txn.n.toNat → raw.length ≤ s.txn.cnt.toNat → Stored s.rxbuf raw →
      decodeFrame raw = .err e pos → e ≠ .truncatedFrame →
      ∃ d, taken e d ∧ d.phase = .fail ∧ d.err = some e ∧ d.pos.toNat = pos ∧ NoValues d.rpbuf)

/-- R17, R243, and the model's choice (log 27): where no block raises an error now, its word changes nothing. -/
def Obligations.ErrorWordsWithoutCause : Prop :=
  ∀ (s : State) (e : ErrorName), TxnRaisesNo e s → DecRaisesNo e s → EncRaisesNo e s → LeafRaisesNo e s →
    exec (errorWord e) s = .next s

/-- R199, R244: an error word that the transaction takes gives the state that the word of `T_STATE` gives, and every
failing row of R199 is such a cycle. Both words are the model's (log 1, log 27). -/
def Obligations.TransactionErrorIsItsOwnCycle : Prop :=
  ∀ (s t : State) (e : ErrorName), s.txn.busy = true →
    (exec (errorWord e) s = .next t → t.txn.busy = false →
      exec (stateWord s.txn.state) s = .next t ∧ t.txn.err = some e) ∧
    (exec (stateWord s.txn.state) s = .next t → t.txn.busy = false → t.txn.err = some e → e ≠ .truncatedFrame →
      exec (errorWord e) s = .next t)

/-! ### The transaction's states -/

/-- R198, R199, R204, R245: a transaction at rest holds its result and lets bytes arrive until `start`; the word of
a state it is not in changes nothing. That a state's word is one clock cycle of the transaction in it is the model's
choice (log 1, log 4), and so are the channel's cycles (log 8). -/
def Obligations.StateWordsAtRest : Prop :=
  ∀ (s : State) (x : TState),
    (x ≠ s.txn.state → exec (stateWord x) s = .next s) ∧
    (x = s.txn.state → s.txn.busy = false → s.ports.tStart = false →
      exec (stateWord x) s = .next { s with chan := (nextCycle s.chan).2 }) ∧
    (x = s.txn.state → s.txn.busy = true → x = .complete ∨ x = .failed →
      exec (stateWord x) s = .next { s with chan := (nextCycle s.chan).2 })

/-- R191, R192, R199, R204: `start` from a resting state, each cycle of the write, and `Sent`. That a state's word
is one clock cycle in it is the model's choice (log 1, log 4), and so are the channel's cycles (log 8). -/
def Obligations.StartAndWriteCycles : Prop :=
  ∀ s : State,
    let c := (nextCycle s.chan).1
    let ch := (nextCycle s.chan).2
    (∀ x, x = s.txn.state → s.txn.busy = false → s.ports.tStart = true →
      exec (stateWord x) s =
        .next { s with
          chan := { ch with inn := [] }
          txn := { s.txn with
            state := .idle
            busy := true
            adr := s.ports.tAddr
            fn := s.ports.tFn
            reqlen := s.ports.tPlen
            timeout := s.ports.tTimeout
            err := none }
          txnEnc := encStarted s.ports.tAddr s.ports.tFn s.ports.tPlen s.txnEnc
          result := none }) ∧
    (s.txn.busy = true → s.txn.state = .idle → s.txnEnc.phase = .emit → c.txErr = false →
      (c.txReady = false → exec .tStateIdle s = .next { s with chan := ch }) ∧
      (c.txReady = true →
        exec .tStateIdle s =
          .next { s with
            chan := { ch with out := ch.out ++ [encOffered s s.txnEnc] }
            txnEnc := encEmitted (encOffered s s.txnEnc) s.txnEnc
            txn := if s.txnEnc.idx.toNat = 17 + s.txnEnc.hexlen.toNat then { s.txn with state := .sent }
              else s.txn })) ∧
    (s.txn.busy = true → s.txn.state = .sent →
      exec .tStateSent s =
        .next { s with chan := ch, txn := { s.txn with state := .awaitingHeader, cnt := 0, timer := 0 } })

/-- R193, R195, R206, R48: a cycle of either read in which it neither fails nor times out; past the deadline a read
goes on where every byte it wants is there (R8, log 29). That a state's word is one clock cycle in it is the model's
choice (log 1, log 4), and so are the channel's cycles (log 8). -/
def Obligations.ReadCycles : Prop :=
  ∀ s : State,
    let c := (nextCycle s.chan).1
    let ch := (nextCycle s.chan).2
    Reading s.txn → c.rxErr = false →
    (ch.inn = [] → s.txn.timer < s.txn.timeout →
      exec (stateWord s.txn.state) s =
        .next { s with
          chan := ch
          txn := { s.txn with timer := if c.tick then s.txn.timer + 1 else s.txn.timer } }) ∧
    (∀ (b : Byte) (more : List Byte), ch.inn = b :: more →
      s.txn.timer < s.txn.timeout ∨ readLimit s.txn ≤ s.txn.cnt.toNat + ch.inn.length →
      ∃ m : Memory,
        exec (stateWord s.txn.state) s =
          .next { s with
            chan := { ch with inn := more }
            rxbuf := m
            txn := { s.txn with
              cnt := s.txn.cnt + 1
              timer :=
                if s.txn.cnt.toNat + 1 ≠ readLimit s.txn ∧ c.tick = true ∧ s.txn.timer.toNat < 2 ^ 32 - 1 then
                  s.txn.timer + 1
                else s.txn.timer } } ∧
        ∀ k, Memory.read m k = if k = s.txn.cnt.toNat then some b else Memory.read s.rxbuf k)

/-- R194, R196, R197, R198: T4 on a good length field, T6 and T7 on a valid reply. That a state's word is one clock
cycle in it, and T4 and T6 one cycle each, is the model's choice (log 1, log 4, log 9), and so are the channel's cycles
(log 8). -/
def Obligations.HeaderAndReplyAccepted : Prop :=
  ∀ s : State, s.txn.busy = true →
    let ch := (nextCycle s.chan).2
    (∀ (h : List Byte) (w : Nat), s.txn.state = .awaitingHeader → 18 ≤ s.txn.cnt.toNat → h.length = 4 →
      (∀ k < 4, Memory.read s.rxbuf (9 + k) = h[k]?) → hexValues h = some w → w / 4096 = nibbleCheck (w % 4096) →
      exec .tStateAwaitingHeader s =
        .next { s with
          chan := ch
          txn := { s.txn with n := BitVec.ofNat 12 w, timer := 0, state := .awaitingPayload } }) ∧
    (∀ (raw : List Byte) (reply : Reply) (m : Nat), s.txn.state = .awaitingPayload →
      raw.length = 18 + s.txn.n.toNat → raw.length ≤ s.txn.cnt.toNat → Stored s.rxbuf raw →
      decodeFrame raw = .ok reply m →
      ∃ d : DecUnit,
        exec .tStateAwaitingPayload s =
          .next { s with
            chan := ch
            txnDec := d
            txn := { s.txn with
              state := .complete
              busy := false
              status := reply.status
              rplen := BitVec.ofNat 11 reply.payload.length
              ver := reply.version
              radr := reply.address
              dev := reply.deviceType }
            result := some (.ok (.reply reply)) } ∧
        d.phase = .ok ∧ Stored d.rpbuf reply.payload)

/-- R199: no transition but those of its table, one clock cycle at a time. That a state's word is one clock cycle in
it is the model's choice (log 1, log 4). -/
def Obligations.OnlyTheseTransitions : Prop :=
  ∀ s : State, BusyMatchesState s → TxnErrorMatches s.txn →
    ∃ t, exec (stateWord s.txn.state) s = .next t ∧
      ((t.txn.state = s.txn.state ∧ t.txn.busy = s.txn.busy) ∨
       (s.txn.busy = false ∧ s.ports.tStart = true ∧ t.txn.state = .idle ∧ t.txn.busy = true) ∨
       (s.txn.busy = true ∧ s.txn.state = .idle ∧ t.txn.state = .sent ∧ t.txn.busy = true) ∨
       (s.txn.busy = true ∧ s.txn.state = .sent ∧ t.txn.state = .awaitingHeader ∧ t.txn.busy = true) ∨
       (s.txn.busy = true ∧ s.txn.state = .awaitingHeader ∧ t.txn.state = .awaitingPayload ∧ t.txn.busy = true) ∨
       (s.txn.busy = true ∧ s.txn.state = .awaitingPayload ∧ t.txn.state = .complete ∧ t.txn.busy = false ∧
         t.txn.err = none) ∨
       (s.txn.busy = true ∧ s.txn.state ≠ .sent ∧ t.txn.state = .failed ∧ t.txn.busy = false ∧
         ∃ e, t.txn.err = some e))

/-! ### execute -/

/-- R190, R195 to R198: an exchange on a channel that takes the frame and then delivers a reply whose length field
is good, whatever the timeout: the request is on the wire, the reply has been read whole, and the result is `Decode`'s
verdict on it. The channel is the list of its coming cycles, the schedule counts cycles as the model does, and with a
timeout of 0 the reply that is there is read all the same (log 8, log 9, log 10, log 29). -/
def Obligations.ExecuteReturnsTheReply : Prop :=
  ∀ (s : State) (first : ChanCycle) (raw : List Byte) (n : Nat),
    s.txn.busy = false → s.ports.tAddr.toNat ≤ 15 → s.ports.tPlen.toNat ≤ 2047 →
    s.chan.future = first :: (List.replicate (18 + 2 * s.ports.tPlen.toNat) taking ++ [delivering raw]) →
    raw.length = 18 + n → n < 4096 → hexValues ((raw.drop 9).take 4) = some (4096 * nibbleCheck n + n) →
    ∃ (frame : List Byte) (e : EncRegs) (d : DecUnit) (m : Memory) (t : TxnRegs) (r : Result),
      encodeFrame s.ports.tAddr s.ports.tFn (executePayload s) = .ok frame ∧
      exec .execute s =
        .next { s with
          chan := { out := s.chan.out ++ frame, inn := [], future := [] }
          txn := t
          txnEnc := e
          txnDec := d
          rxbuf := m
          result := some r } ∧
      (∀ k, Memory.read m k = if k < raw.length then raw[k]? else Memory.read s.rxbuf k) ∧
      e.phase = .done ∧ e.err = none ∧ t.busy = false ∧ t.adr = s.ports.tAddr ∧ t.fn = s.ports.tFn ∧ t.reqlen = s.ports.tPlen ∧
      t.timeout = s.ports.tTimeout ∧ t.timer = 0 ∧ t.cnt.toNat = 18 + n ∧ t.n.toNat = n ∧
      match decodeFrame raw with
      | .ok reply _ =>
        r = .ok (.reply reply) ∧ t.state = .complete ∧ t.err = none ∧ t.status = reply.status ∧
        t.rplen.toNat = reply.payload.length ∧ t.ver = reply.version ∧ t.radr = reply.address ∧
        t.dev = reply.deviceType ∧ d.phase = .ok ∧ Stored d.rpbuf reply.payload
      | .err x pos =>
        r = .err x ∧ t.state = .failed ∧ t.err = some x ∧ d.phase = .fail ∧ d.pos.toNat = pos ∧ NoValues d.rpbuf ∧
        t.status = s.txn.status ∧ t.rplen = s.txn.rplen ∧ t.ver = s.txn.ver ∧ t.radr = s.txn.radr ∧
        t.dev = s.txn.dev

/-- R191, R192, R202, R204, R207: where `execute` ends without a reply: ignored while busy; refused operands, after
the flush and with nothing written; and silence, after `timeout` ticks. The channel is the list of its coming cycles,
and how many of them pass is the model's count (log 8, log 9, log 10). -/
def Obligations.ExecuteWithoutReply : Prop :=
  ∀ s : State,
    (s.txn.busy = true → exec .execute s = .next s) ∧
    (∀ e, s.txn.busy = false →
      (15 < s.ports.tAddr.toNat ∧ e = .invalidAddress) ∨
        (s.ports.tAddr.toNat ≤ 15 ∧ 2047 < s.ports.tPlen.toNat ∧ e = .payloadTooLarge) →
      exec .execute s =
        .next { s with
          chan := {
            out := s.chan.out
            inn := ((s.chan.future.drop 1).head?.map ChanCycle.arrive).getD []
            future := s.chan.future.drop 2 }
          txn := txnFailed e { s.txn with
            adr := s.ports.tAddr, fn := s.ports.tFn, reqlen := s.ports.tPlen, timeout := s.ports.tTimeout }
          txnEnc := encStarted s.ports.tAddr s.ports.tFn s.ports.tPlen s.txnEnc
          result := some (.err e) }) ∧
    (∀ first : ChanCycle, s.txn.busy = false → s.ports.tAddr.toNat ≤ 15 → s.ports.tPlen.toNat ≤ 2047 →
      s.chan.future = first :: (List.replicate (18 + 2 * s.ports.tPlen.toNat) taking ++ [ChanCycle.quiet] ++
        List.replicate s.ports.tTimeout.toNat ticking ++ [ChanCycle.quiet]) →
      ∃ (frame : List Byte) (e : EncRegs),
        encodeFrame s.ports.tAddr s.ports.tFn (executePayload s) = .ok frame ∧
        exec .execute s =
          .next { s with
            chan := { out := s.chan.out ++ frame, inn := [], future := [] }
            txn := txnFailed .responseTimeout { s.txn with
              adr := s.ports.tAddr
              fn := s.ports.tFn
              reqlen := s.ports.tPlen
              timeout := s.ports.tTimeout
              timer := s.ports.tTimeout
              cnt := 0 }
            txnEnc := e
            result := some (.err .responseTimeout) })

/-- R190, R8, R48, R55: whatever the channel does, an `execute` that ends has the result of the functional level for
some answers to its three accesses, each one allowed: a whole write, 18 bytes, `T_N` bytes, those bytes being the first
to arrive after the flush; `IoError` only in a cycle with `tx_err` or `rx_err`; `Timeout` only where fewer bytes than
wanted came within `timeout` ticks of the start of that read, and then nothing is left of them (log 29). The channel is
the list of its coming cycles (log 8, log 10). -/
def Obligations.ExecuteAgreesWithFunction : Prop :=
  ∀ s t : State, s.txn.busy = false → exec .execute s = .next t → t.txn.busy = false →
    ∃ (w : WriteAnswer) (header second : ReadAnswer),
      t.result = some (executeFunctional s.ports.tAddr s.ports.tFn (executePayload s) w header second) ∧
      (∀ k, w = .count k → ∀ frame, encodeFrame s.ports.tAddr s.ports.tFn (executePayload s) = .ok frame →
        k = frame.length ∧ t.chan.out = s.chan.out ++ frame) ∧
      (∀ b, header = .bytes b → b.length = 18) ∧
      (∀ b, second = .bytes b → b.length = t.txn.n.toNat) ∧
      answerBytes header ++ answerBytes second <+: arrivals (s.chan.future.drop 1) ∧
      (t.result = some (.err .ioError) →
        ∃ c, LastCycle s.chan.future t.chan.future c ∧
          (w = .ioError → c.txErr = true) ∧ (w ≠ .ioError → c.rxErr = true)) ∧
      (t.result = some (.err .responseTimeout) →
        t.chan.inn = [] ∧
        ∃ before,
          18 + 2 * s.ports.tPlen.toNat ≤ (before.filter ChanCycle.txReady).length ∧
          (header = .timeout →
            DeadlineMissed s.chan.future t.chan.future before s.ports.tTimeout.toNat 18) ∧
          (header ≠ .timeout → second = .timeout ∧ 18 ≤ (arrivals (before.drop 1)).length ∧
            DeadlineMissed s.chan.future t.chan.future before s.ports.tTimeout.toNat (18 + t.txn.n.toNat)))

/-- R208: what the caller sees of an `execute`, and what it writes, depend on the operands and on what the channel
does from then on, and on nothing an earlier exchange left: not the transaction's registers, nor its encoder's or
decoder's, nor `RXBUF`, nor unread input. The channel is the list of its coming cycles, and that both runs leave the same
ones of them counts cycles as the model does (log 8, log 9, log 10). -/
def Obligations.ExecuteIsStateless : Prop :=
  ∀ s s' t t' : State, s.txn.busy = false → s'.txn.busy = false → s.ports = s'.ports →
    executePayload s = executePayload s' → s.chan.future = s'.chan.future →
    exec .execute s = .next t → exec .execute s' = .next t' →
    callerView t = callerView t' ∧ t.chan.future = t'.chan.future ∧
    ∃ w, t.chan.out = s.chan.out ++ w ∧ t'.chan.out = s'.chan.out ++ w

/-- R270: an `execute` that has not ended waits for the channel alone: the environment has nothing left to do, and
until it does more, nothing changes. An environment that has run out of cycles is silent (log 8, log 10), and the further
cycle is the word of `T_STATE` (log 1, log 4). -/
def Obligations.ExecuteWaitsOnlyForTheChannel : Prop :=
  ∀ s t : State, s.txn.busy = false → exec .execute s = .next t → t.txn.busy = true →
    t.chan.future = [] ∧ t.result = none ∧
    (t.txn.state = .idle ∨ (t.chan.inn = [] ∧ Reading t.txn ∧ t.txn.timer < t.txn.timeout)) ∧
    exec (stateWord t.txn.state) t = .next t

/-- R47, R55, R192: what an `execute` writes is the frame from its first byte on; where the inner encoder has finished
it has written all of it, and where it has not, nothing has been read, and the exchange waits in its write or ended in
a cycle with `tx_err`; nothing at all is written where `Encode` fails. The channel is the list of its coming cycles,
and `execute` answers while it still waits for them: the model's choice (log 8, log 10). -/
def Obligations.ExecuteWritesTheFrameInOrder : Prop :=
  ∀ s t : State, s.txn.busy = false → exec .execute s = .next t →
    (∀ e, encodeFrame s.ports.tAddr s.ports.tFn (executePayload s) = .err e →
      t.chan.out = s.chan.out ∧ t.result = some (.err e)) ∧
    (∀ frame, encodeFrame s.ports.tAddr s.ports.tFn (executePayload s) = .ok frame →
      ∃ k ≤ frame.length, t.chan.out = s.chan.out ++ frame.take k ∧
        (t.txnEnc.phase = .done → k = frame.length) ∧
        (t.txn.state = .sent ∨ t.txn.state = .awaitingHeader ∨ t.txn.state = .awaitingPayload ∨
          t.txn.state = .complete → t.txnEnc.phase = .done) ∧
        (t.txnEnc.phase ≠ .done →
          t.rxbuf = s.rxbuf ∧ t.txn.cnt = s.txn.cnt ∧
          ((k < frame.length ∧ t.txn.busy = true ∧ t.txn.state = .idle) ∨
           (t.result = some (.err .ioError) ∧ ∃ c, LastCycle s.chan.future t.chan.future c ∧ c.txErr = true))))

/-! ### The machine -/

/-- A step runs the presented word. Bytes received at the place of a character or a field that are no word of it are
received all the same (R83; log 1): a byte outside the alphabet is an `InvalidHexDigit` and is offered to the decoder,
and the bytes of no field do to the decoder what any characters there do. With nothing presented a step is the clock
edge of a clock stimulus at the levels held (R22; log 3, log 4). -/
def Obligations.StepRunsTheDecodedWord : Prop :=
  (∀ (s : State) (place : Place) (bytes : List Byte) (rest : List Stimulus) (i : Instr),
    s.script = .word place bytes :: rest → decodeWord place bytes = .instr i →
    step s = exec i { s with script := rest }) ∧
  (∀ (s : State) (i : Instr) (rest : List Stimulus), wellFormed i = true →
    s.script = .word (encodeWord i).1 (encodeWord i).2 :: rest → step s = exec i { s with script := rest }) ∧
  (∀ (s : State) (c : Byte) (rest : List Stimulus), s.script = .word .character [c] :: rest → hexValue c = none →
    step s = .next { s with script := rest, dec := decByte c s.dec, result := some (.err .invalidHexDigit) }) ∧
  (∀ (s : State) (place : Place) (bytes : List Byte) (rest : List Stimulus) (why : Reject),
    s.script = .word place bytes :: rest → decodeWord place bytes = .rejected why →
    (place = .character ∧ bytes.length ≠ 1) ∨ (∃ f, place = .field f) →
    step s = exec (.frameInfo bytes) { s with script := rest }) ∧
  (∀ s : State, s.script = [] → step s = step { s with script := [.clock s.ports] }) ∧
  (∀ (s : State) (p : InPorts) (rest : List Stimulus), s.script = .drive p :: rest →
    step s = .next { s with script := rest, ports := p })

/-- R22, R199, R204: what a clock edge does to the transaction, its encoder and decoder, `RXBUF` and the channel is
what the word of `T_STATE` does from the same state, whatever the other blocks do in that edge. A `PBUF` byte written in
the edge is there first, and where `PBUF` should have been held and the byte belongs to the frame being emitted, its
characters emitted already or not, it may have spoiled the checksum, which is the model's choice (log 13); so is what the
word of `T_STATE` means (log 1, log 4). -/
def Obligations.ClockEdgeMovesTheTransaction : Prop :=
  ∀ (s : State) (p : InPorts) (rest : List Stimulus), s.script = .clock p :: rest →
    p.pbWe = false ∨ p.pbIdx.toNat < 2047 →
    ∃ (t u : State) (sum : U16) (drawn : Nat),
      step s = .next t ∧
      exec (stateWord s.txn.state)
        { s with
          script := rest
          ports := p
          pbuf := t.pbuf
          txnEnc := { s.txnEnc with acc := sum }
          draws := drawn } = .next u ∧
      t.txn = u.txn ∧ t.txnEnc = u.txnEnc ∧ t.txnDec = u.txnDec ∧ t.rxbuf = u.rxbuf ∧ t.chan = u.chan ∧
      t.result = u.result ∧ t.draws = u.draws ∧ t.script = rest ∧ t.ports = p ∧ t.epoch = s.epoch ∧
      (p.pbWe = false → t.pbuf = s.pbuf ∧ drawn = s.draws) ∧
      (p.pbWe = false ∨ (s.txn.busy = false ∧ s.enc.phase ≠ .emit) ∨ s.txnEnc.phase ≠ .emit ∨
        s.txnEnc.hexlen.toNat ≤ 2 * p.pbIdx.toNat → sum = s.txnEnc.acc)

/-- R83, R84, R41: every word of the table runs in every state; a step stops only where the caller writes a `PBUF`
byte that does not exist, or presents an identifier or a code that no port carries; received bytes never stop it. The
form of both stops is the model's (log 3, log 14). -/
def Obligations.StepStopsOnlyWhereNothingExists : Prop :=
  (∀ (i : Instr) (s : State), ∃ t, exec i s = .next t) ∧
  (∀ (s : State) (f : Fault), step s = .fault f ↔
    f = .noSuchPbufIndex ∧ ∃ p, (s.script = [] ∧ p = s.ports ∨ ∃ rest, s.script = .clock p :: rest) ∧
      p.pbWe = true ∧ p.pbIdx.toNat = 2047) ∧
  (∀ (s : State) (r : Refusal), step s = .refused r ↔
    r = .noSuchWord ∧ ∃ place bytes rest why, s.script = .word place bytes :: rest ∧
      decodeWord place bytes = .rejected why ∧ place ≠ .character ∧ ∀ f, place ≠ .field f)

/-- Words of each kind, written out from the table. The bytes that carry them (an identifier or a code in the low bits
of one byte, the length word as two bytes, high byte first) are the model's choice (log 24). -/
def Obligations.TableWordsDecode : Prop :=
  decodeWord .operation [0b00000011] = .instr .encodeU16 ∧
  decodeWord .operation [0b00001110] = .instr .execute ∧
  decodeWord .operation [0b00000000] = .rejected .reservedOperation ∧
  decodeWord .operation [0b00001111] = .rejected .reservedOperation ∧
  decodeWord .character [0b01000110] = .instr .hexcharUpperF ∧
  decodeWord .character [0b01100001] = .instr .hexcharLowerA ∧
  decodeWord .character [0b01000111] = .rejected .notInAlphabet ∧
  decodeWord (.field .soi) [0b01111110] = .instr .frameSoi ∧
  decodeWord (.field .adr) [0b00110000, 0b00110001] = .instr (.frameAdr 0x30 0x31) ∧
  decodeWord .lengthWord [0b11010000, 0b00010010] = .instr (.lengthWord 0xD 0x012) ∧
  decodeWord .errorCode [0b00001001] = .instr .errTruncatedFrame ∧
  decodeWord .errorCode [0b00001010] = .rejected .notAnErrorCode ∧
  decodeWord .stateCode [0b00000101] = .instr .tStateFailed ∧
  decodeWord .stateCode [0b00000111] = .rejected .reservedState

/-- Decoding what the encoder writes gives the word back, for every word; and bytes that decode to a word are its
encoding, but for the bits above an identifier or code. The bytes that carry a word are the model's choice (log 24). -/
def Obligations.EveryWordDecodesBack : Prop :=
  (∀ i : Instr, wellFormed i = true → decodeWord (encodeWord i).1 (encodeWord i).2 = .instr i) ∧
  (∀ i : Instr, decodeWord (encodeWord i).1 (encodeWord i).2 = .instr i) ∧
  (∀ (place : Place) (bytes : List Byte) (i : Instr), decodeWord place bytes = .instr i →
    (encodeWord i).1 = place ∧ (encodeWord i).2.length = bytes.length ∧
    (place ≠ .operation → place ≠ .errorCode → place ≠ .stateCode → (encodeWord i).2 = bytes) ∧
    (place = .operation ∨ place = .errorCode → ∀ b ∈ bytes, (encodeWord i).2 = [b &&& 0x0F]) ∧
    (place = .stateCode → ∀ b ∈ bytes, (encodeWord i).2 = [b &&& 0x07]))

/-- R41, R266: the caller's write port into `PBUF`: the byte written and no other; a write while the buffer must be
held may or may not appear; an index the buffer does not have stops the machine. That a write in the very cycle of a
start lands, and what happens to a write while the buffer must be held and to index 2047, is the model's (log 13,
log 14). -/
def Obligations.PbufWritePort : Prop :=
  ∀ (s : State) (p : InPorts) (rest : List Stimulus), s.script = .clock p :: rest → p.pbWe = true →
    (p.pbIdx.toNat < 2047 → s.txn.busy = false → s.enc.phase ≠ .emit →
      ∃ t, step s = .next t ∧
        ∀ k, Memory.read t.pbuf k = if k = p.pbIdx.toNat then some p.pbData else Memory.read s.pbuf k) ∧
    (p.pbIdx.toNat < 2047 → s.txn.busy = true ∨ s.enc.phase = .emit →
      ∃ t, step s = .next t ∧
        (Memory.read t.pbuf p.pbIdx.toNat = some p.pbData ∨
          Memory.read t.pbuf p.pbIdx.toNat = Memory.read s.pbuf p.pbIdx.toNat) ∧
        ∀ k, k ≠ p.pbIdx.toNat → Memory.read t.pbuf k = Memory.read s.pbuf k) ∧
    (p.pbIdx.toNat = 2047 → step s = .fault .noSuchPbufIndex)

/-- R21, R260, R261: what reset leaves, from any state and in any cycle; what was written to the channel stands and
its input is not flushed; and while `rst` is high the handshakes of the three frame blocks are low and their results
read 0 (R176, R177, R205, R272). What `lc_ok` shows then is not claimed (log 31). -/
def Obligations.ResetValues : Prop :=
  RegistersAtReset State.reset ∧
  (∀ (s : State) (p : InPorts) (rest : List Stimulus), s.script = .reset p :: rest →
    ∃ t, step s = .next t ∧ RegistersAtReset t ∧
      (let o := outputs t
       o.enc.done = false ∧ o.enc.ok = false ∧ o.dec.done = false ∧ o.dec.ok = false ∧ o.txn.done = false ∧
       o.txn.ok = false ∧ o.enc.err = 0 ∧ o.dec.err = 0 ∧ o.txn.err = 0) ∧
      t.chan.out = s.chan.out ∧ s.chan.inn <+: t.chan.inn) ∧
  (∀ s : State, HandshakesLow (outputsInReset s) ∧ ResultsZero (outputsInReset s))

/-- R231, and what R60, R146, R176, R177, R198, R205 and R272 say of them: the error and state codes, and the output
ports of the three frame blocks, results gated to 0 until the block is done and ok; `en_pb_idx` while payload is emitted
and `en_out_data` at the offsets of a frame, the only places the spec gives them (log 30). -/
def Obligations.StatusOutputs : Prop :=
  (errPort none = 0 ∧ errPort (some .ioError) = 1 ∧ errPort (some .responseTimeout) = 2 ∧
    errPort (some .invalidHexDigit) = 3 ∧ errPort (some .lengthChecksumMismatch) = 4 ∧
    errPort (some .checksumMismatch) = 5 ∧ errPort (some .malformedFrame) = 6 ∧
    errPort (some .invalidAddress) = 7 ∧ errPort (some .payloadTooLarge) = 8 ∧
    errPort (some .truncatedFrame) = 9 ∧ ∀ e, (errPort e).toNat ≤ 9) ∧
  (∀ s : State,
    let o := (outputs s).enc
    let r := s.enc
    (o.outValid = true ↔ r.phase = .emit) ∧ (r.idx.toNat ≤ 17 + r.hexlen.toNat → o.outData = encOffered s r) ∧
    (o.outLast = true ↔ r.phase = .emit ∧ r.idx.toNat = 17 + r.hexlen.toNat) ∧
    (o.done = true ↔ r.phase = .done ∨ r.phase = .fail) ∧ (o.ok = true ↔ r.phase = .done) ∧ o.err = errPort r.err ∧
    (r.phase = .emit → 13 ≤ r.idx.toNat → r.idx.toNat ≤ 12 + r.hexlen.toNat →
      o.pbIdx.toNat = (r.idx.toNat - 13) / 2)) ∧
  (∀ s : State,
    let o := (outputs s).dec
    let d := s.dec
    let j := d.pos.toNat - 13
    (o.inReady = true ↔ d.phase ≠ .idle ∧ d.phase ≠ .ok ∧ d.phase ≠ .fail) ∧
    (o.ok = true ↔ d.phase = .ok) ∧ (o.done = true ↔ d.phase = .ok ∨ d.phase = .fail) ∧ o.err = errPort d.err ∧
    o.pos = d.pos ∧
    (o.ok = false → o.status = 0 ∧ o.ver = 0 ∧ o.adr = 0 ∧ o.dev = 0 ∧ o.plen = 0) ∧
    (o.ok = true → o.status = d.fn ∧ o.ver = d.ver ∧ o.adr = d.adr ∧ o.dev = d.dev ∧ o.plen = d.plen) ∧
    (s.ports.deInValid = false ∨ s.ports.deStart = true ∨ d.phase ≠ .pay ∨ hexValue s.ports.deInData = none ∨
      j % 2 = 0 → o.pbWrite = none) ∧
    (∀ v, s.ports.deInValid = true → s.ports.deStart = false → d.phase = .pay → hexValue s.ports.deInData = some v →
      j % 2 = 1 → o.pbWrite = some (BitVec.ofNat 11 (j / 2), d.hi ++ BitVec.ofNat 4 v))) ∧
  (∀ s : State,
    let o := txnOutputs s
    (o.ok = true ↔ s.txn.state = .complete) ∧
    (o.done = true ↔ s.txn.state = .complete ∨ s.txn.state = .failed) ∧ o.err = errPort s.txn.err ∧
    o.busy = s.txn.busy ∧
    o.state = (match s.txn.state with
      | .idle => 0
      | .sent => 1
      | .awaitingHeader => 2
      | .awaitingPayload => 3
      | .complete => 4
      | .failed => 5) ∧
    (o.chFlush = true ↔ s.txn.busy = false ∧ s.ports.tStart = true) ∧
    (o.txValid = true ↔ s.txn.busy = true ∧ s.txn.state = .idle ∧ s.txnEnc.phase = .emit) ∧
    (s.txnEnc.idx.toNat ≤ 17 + s.txnEnc.hexlen.toNat → o.txData = encOffered s s.txnEnc) ∧
    (o.rxReady = true ↔ Reading s.txn) ∧
    (o.ok = false →
      o.status = 0 ∧ o.rplen = 0 ∧ o.ver = 0 ∧ o.radr = 0 ∧ o.dev = 0 ∧ o.rpData = none) ∧
    (o.ok = true →
      o.status = s.txn.status ∧ o.rplen = s.txn.rplen ∧ o.ver = s.txn.ver ∧ o.radr = s.txn.radr ∧
      o.dev = s.txn.dev ∧
      ∀ b, s.ports.rpIdx < s.txn.rplen → Memory.read s.txnDec.rpbuf s.ports.rpIdx.toNat = some b →
        o.rpData = some b))

/-- R22, R40, R41, R44, R46, R106: what no word can touch, and what the words of the stand-alone blocks leave alone.
That the stand-alone blocks stand beside the transaction's is the model's choice (log 7). -/
def Obligations.WordsStayInTheirBlocks : Prop :=
  ∀ (i : Instr) (s t : State), exec i s = .next t →
    (t.pbuf = s.pbuf ∧ t.script = s.script ∧ t.epoch = s.epoch ∧ s.chan.out <+: t.chan.out) ∧
    (StandAlone i →
      t.txn = s.txn ∧ t.txnEnc = s.txnEnc ∧ t.txnDec = s.txnDec ∧ t.rxbuf = s.rxbuf ∧ t.chan = s.chan ∧
      t.draws = s.draws) ∧
    ((encodeWord i).1 = .stateCode ∨ i = .execute →
      t.acc = s.acc ∧ t.enc = s.enc ∧ t.enTaken = s.enTaken ∧ t.dec = s.dec ∧ t.ports = s.ports)

/-! ### Invariants -/

/-- Every buffer stays in canonical form and within its size (R19, R41, R42, R43). -/
def Obligations.BuffersStayCanonical : Prop :=
  ∀ s t : State, BuffersCanonical s → step s = .next t → BuffersCanonical t

/-- Error codes and phases go on agreeing in every block (R17, R190, R240, R244), and `t_busy` with `T_STATE`
(R199, R205). -/
def Obligations.ErrorsAndPhasesStayMatched : Prop :=
  ∀ s t : State, ErrorsMatchPhases s → BusyMatchesState s → step s = .next t →
    ErrorsMatchPhases t ∧ BusyMatchesState t

/-- The position counters stay in their ranges (R11, R166). -/
def Obligations.PositionsStayInRange : Prop :=
  ∀ s t : State, PositionsInRange s → step s = .next t → PositionsInRange t

/-- In the two read states `T_CNT` goes on counting bytes that stand in `RXBUF`, and `T_N` is the length the header
declares (R11, R42, R194). -/
def Obligations.ReplyStaysStored : Prop :=
  ∀ s t : State, ReplyStored s → step s = .next t → ReplyStored t

/-- The invariants hold right after reset. -/
def Obligations.InvariantsHoldAtReset : Prop :=
  BuffersCanonical State.reset ∧ ErrorsMatchPhases State.reset ∧ BusyMatchesState State.reset ∧
  PositionsInRange State.reset ∧ ReplyStored State.reset
end

