-- ==== Sys2Proof/Laws/Memory.lean ====
section
/-! SUPPORT. The laws of the byte buffers: what a read after a write gives, and that every write keeps the
canonical form and the size. -/

namespace Sys2Proof.Laws

open Sys2Proof Sys2Proof.Machine

@[simp] theorem read_nil (i : Nat) : Memory.read [] i = none := rfl

/-- A read after a write gives the written byte at its index and is unchanged elsewhere. -/
theorem read_write (m : Memory) (i j : Nat) (b : Byte) :
    Memory.read (Memory.write m i b) j = if i = j then some b else Memory.read m j := by
  induction m with
  | nil => simp [Memory.write, Memory.read]
  | cons c m ih =>
    obtain ⟨k, v⟩ := c
    by_cases h1 : i < k
    · simp [Memory.write, Memory.read, h1]
    · by_cases h2 : i = k
      · subst h2; by_cases h3 : i = j <;> simp [Memory.write, Memory.read, h3]
      · by_cases h3 : k = j
        · subst h3; simp [Memory.write, Memory.read, h1, h2]
        · simp [Memory.write, Memory.read, h1, h2, h3, ih]

@[simp] theorem read_write_same (m : Memory) (i : Nat) (b : Byte) : Memory.read (Memory.write m i b) i = some b := by
  simp [read_write]

theorem read_write_other (m : Memory) {i j : Nat} (b : Byte) (h : i ≠ j) :
    Memory.read (Memory.write m i b) j = Memory.read m j := by simp [read_write, h]

/-- A read after a write into a buffer of `size` bytes. -/
theorem read_writeIn (size : Nat) (m : Memory) (i j : Nat) (b : Byte) :
    Memory.read (Memory.writeIn size m i b) j = if i = j ∧ i < size then some b else Memory.read m j := by
  by_cases h : i < size <;> simp [Memory.writeIn, h, read_write]

theorem wf_cons {c : Host.Cell} {m : Memory} :
    Memory.wf (c :: m) = true ↔ (∀ d, m.head? = some d → c.1 < d.1) ∧ Memory.wf m = true := by
  cases m with
  | nil => simp [Memory.wf]
  | cons d m => obtain ⟨i, a⟩ := c; obtain ⟨j, b⟩ := d; simp [Memory.wf]

theorem write_head (m : Memory) (i : Nat) (b : Byte) (d : Host.Cell)
    (h : (Memory.write m i b).head? = some d) : d.1 = i ∨ m.head? = some d := by
  cases m with
  | nil => simp [Memory.write] at h; exact .inl (by rw [← h])
  | cons c m =>
    obtain ⟨k, v⟩ := c
    simp only [Memory.write] at h
    split at h
    · simp at h; exact .inl (by rw [← h])
    · split at h
      · simp at h; exact .inl (by rw [← h])
      · simp at h; exact .inr (by simp [h])

/-- A write keeps the indices strictly rising. -/
theorem wf_write (m : Memory) (i : Nat) (b : Byte) (h : Memory.wf m = true) :
    Memory.wf (Memory.write m i b) = true := by
  induction m with
  | nil => rfl
  | cons c m ih =>
    obtain ⟨k, v⟩ := c
    have hm := (wf_cons.mp h).2
    have hh := (wf_cons.mp h).1
    simp only [Memory.write]
    split
    · rename_i hik; exact wf_cons.mpr ⟨by simpa using hik, h⟩
    · split
      · rename_i hik; subst hik; exact wf_cons.mpr ⟨hh, hm⟩
      · rename_i h1 h2
        refine wf_cons.mpr ⟨fun d hd => ?_, ih hm⟩
        rcases write_head m i b d hd with h3 | h3
        · show k < d.1; omega
        · exact hh d h3

theorem bounded_write (size : Nat) (m : Memory) (i : Nat) (b : Byte) (hi : i < size)
    (h : Memory.bounded size m = true) : Memory.bounded size (Memory.write m i b) = true := by
  induction m with
  | nil => simpa [Memory.write, Memory.bounded] using hi
  | cons c m ih =>
    obtain ⟨k, v⟩ := c
    have hk : k < size ∧ Memory.bounded size m = true := by simpa [Memory.bounded] using h
    simp only [Memory.write]
    split
    · simp only [Memory.bounded, List.all_cons, Bool.and_eq_true, decide_eq_true_eq]
      exact ⟨hi, hk.1, hk.2⟩
    · split
      · simp only [Memory.bounded, List.all_cons, Bool.and_eq_true, decide_eq_true_eq]
        exact ⟨hi, hk.2⟩
      · simp only [Memory.bounded, List.all_cons, Bool.and_eq_true, decide_eq_true_eq]
        exact ⟨hk.1, ih hk.2⟩

/-- A write into a buffer keeps the canonical form. -/
theorem wf_writeIn (size : Nat) (m : Memory) (i : Nat) (b : Byte) (h : Memory.wf m = true) :
    Memory.wf (Memory.writeIn size m i b) = true := by
  unfold Memory.writeIn; split
  · exact wf_write m i b h
  · exact h

/-- A write into a buffer stays within its size. -/
theorem bounded_writeIn (size : Nat) (m : Memory) (i : Nat) (b : Byte) (h : Memory.bounded size m = true) :
    Memory.bounded size (Memory.writeIn size m i b) = true := by
  unfold Memory.writeIn; split
  · exact bounded_write size m i b ‹_› h
  · exact h

@[simp] theorem bytes_length (buffer epoch : Nat) (m : Memory) (n : Nat) :
    (Memory.bytes buffer epoch m n).length = n := by simp [Memory.bytes]

/-- The buffers of the reset state are in canonical form and within their sizes. -/
theorem reset_buffers_wf : Memory.wf State.reset.pbuf = true ∧ Memory.wf State.reset.rxbuf = true ∧
    Memory.wf State.reset.dec.rpbuf = true ∧ Memory.wf State.reset.txnDec.rpbuf = true := by decide

end Sys2Proof.Laws
end

