-- ==== Sys2Proof/Laws/State.lean ====
section
/-! SUPPORT. One lemma per field per named update of the state, true by `rfl`, so that no proof unfolds an update. -/

namespace Sys2Proof.Laws

open Sys2Proof.Machine

variable (s : State)

@[simp] theorem setResult_acc (r : Result) : (s.setResult r).acc = s.acc := rfl
@[simp] theorem setResult_enc (r : Result) : (s.setResult r).enc = s.enc := rfl
@[simp] theorem setResult_enTaken (r : Result) : (s.setResult r).enTaken = s.enTaken := rfl
@[simp] theorem setResult_dec (r : Result) : (s.setResult r).dec = s.dec := rfl
@[simp] theorem setResult_txn (r : Result) : (s.setResult r).txn = s.txn := rfl
@[simp] theorem setResult_txnEnc (r : Result) : (s.setResult r).txnEnc = s.txnEnc := rfl
@[simp] theorem setResult_txnDec (r : Result) : (s.setResult r).txnDec = s.txnDec := rfl
@[simp] theorem setResult_pbuf (r : Result) : (s.setResult r).pbuf = s.pbuf := rfl
@[simp] theorem setResult_rxbuf (r : Result) : (s.setResult r).rxbuf = s.rxbuf := rfl
@[simp] theorem setResult_chan (r : Result) : (s.setResult r).chan = s.chan := rfl
@[simp] theorem setResult_ports (r : Result) : (s.setResult r).ports = s.ports := rfl
@[simp] theorem setResult_result (r : Result) : (s.setResult r).result = some r := rfl
@[simp] theorem setResult_script (r : Result) : (s.setResult r).script = s.script := rfl
@[simp] theorem setResult_epoch (r : Result) : (s.setResult r).epoch = s.epoch := rfl
@[simp] theorem setResult_draws (r : Result) : (s.setResult r).draws = s.draws := rfl

@[simp] theorem setAcc_acc (a : U16) : (s.setAcc a).acc = a := rfl
@[simp] theorem setAcc_enc (a : U16) : (s.setAcc a).enc = s.enc := rfl
@[simp] theorem setAcc_enTaken (a : U16) : (s.setAcc a).enTaken = s.enTaken := rfl
@[simp] theorem setAcc_dec (a : U16) : (s.setAcc a).dec = s.dec := rfl
@[simp] theorem setAcc_txn (a : U16) : (s.setAcc a).txn = s.txn := rfl
@[simp] theorem setAcc_txnEnc (a : U16) : (s.setAcc a).txnEnc = s.txnEnc := rfl
@[simp] theorem setAcc_txnDec (a : U16) : (s.setAcc a).txnDec = s.txnDec := rfl
@[simp] theorem setAcc_pbuf (a : U16) : (s.setAcc a).pbuf = s.pbuf := rfl
@[simp] theorem setAcc_rxbuf (a : U16) : (s.setAcc a).rxbuf = s.rxbuf := rfl
@[simp] theorem setAcc_chan (a : U16) : (s.setAcc a).chan = s.chan := rfl
@[simp] theorem setAcc_ports (a : U16) : (s.setAcc a).ports = s.ports := rfl
@[simp] theorem setAcc_result (a : U16) : (s.setAcc a).result = s.result := rfl
@[simp] theorem setAcc_script (a : U16) : (s.setAcc a).script = s.script := rfl
@[simp] theorem setAcc_epoch (a : U16) : (s.setAcc a).epoch = s.epoch := rfl
@[simp] theorem setAcc_draws (a : U16) : (s.setAcc a).draws = s.draws := rfl

@[simp] theorem setDec_acc (d : DecUnit) : (s.setDec d).acc = s.acc := rfl
@[simp] theorem setDec_enc (d : DecUnit) : (s.setDec d).enc = s.enc := rfl
@[simp] theorem setDec_enTaken (d : DecUnit) : (s.setDec d).enTaken = s.enTaken := rfl
@[simp] theorem setDec_dec (d : DecUnit) : (s.setDec d).dec = d := rfl
@[simp] theorem setDec_txn (d : DecUnit) : (s.setDec d).txn = s.txn := rfl
@[simp] theorem setDec_txnEnc (d : DecUnit) : (s.setDec d).txnEnc = s.txnEnc := rfl
@[simp] theorem setDec_txnDec (d : DecUnit) : (s.setDec d).txnDec = s.txnDec := rfl
@[simp] theorem setDec_pbuf (d : DecUnit) : (s.setDec d).pbuf = s.pbuf := rfl
@[simp] theorem setDec_rxbuf (d : DecUnit) : (s.setDec d).rxbuf = s.rxbuf := rfl
@[simp] theorem setDec_chan (d : DecUnit) : (s.setDec d).chan = s.chan := rfl
@[simp] theorem setDec_ports (d : DecUnit) : (s.setDec d).ports = s.ports := rfl
@[simp] theorem setDec_result (d : DecUnit) : (s.setDec d).result = s.result := rfl
@[simp] theorem setDec_script (d : DecUnit) : (s.setDec d).script = s.script := rfl
@[simp] theorem setDec_epoch (d : DecUnit) : (s.setDec d).epoch = s.epoch := rfl
@[simp] theorem setDec_draws (d : DecUnit) : (s.setDec d).draws = s.draws := rfl

@[simp] theorem setTxn_acc (t : TxnRegs) : (s.setTxn t).acc = s.acc := rfl
@[simp] theorem setTxn_enc (t : TxnRegs) : (s.setTxn t).enc = s.enc := rfl
@[simp] theorem setTxn_enTaken (t : TxnRegs) : (s.setTxn t).enTaken = s.enTaken := rfl
@[simp] theorem setTxn_dec (t : TxnRegs) : (s.setTxn t).dec = s.dec := rfl
@[simp] theorem setTxn_txn (t : TxnRegs) : (s.setTxn t).txn = t := rfl
@[simp] theorem setTxn_txnEnc (t : TxnRegs) : (s.setTxn t).txnEnc = s.txnEnc := rfl
@[simp] theorem setTxn_txnDec (t : TxnRegs) : (s.setTxn t).txnDec = s.txnDec := rfl
@[simp] theorem setTxn_pbuf (t : TxnRegs) : (s.setTxn t).pbuf = s.pbuf := rfl
@[simp] theorem setTxn_rxbuf (t : TxnRegs) : (s.setTxn t).rxbuf = s.rxbuf := rfl
@[simp] theorem setTxn_chan (t : TxnRegs) : (s.setTxn t).chan = s.chan := rfl
@[simp] theorem setTxn_ports (t : TxnRegs) : (s.setTxn t).ports = s.ports := rfl
@[simp] theorem setTxn_result (t : TxnRegs) : (s.setTxn t).result = s.result := rfl
@[simp] theorem setTxn_script (t : TxnRegs) : (s.setTxn t).script = s.script := rfl
@[simp] theorem setTxn_epoch (t : TxnRegs) : (s.setTxn t).epoch = s.epoch := rfl
@[simp] theorem setTxn_draws (t : TxnRegs) : (s.setTxn t).draws = s.draws := rfl

@[simp] theorem setTxnEnc_acc (e : EncRegs) : (s.setTxnEnc e).acc = s.acc := rfl
@[simp] theorem setTxnEnc_enc (e : EncRegs) : (s.setTxnEnc e).enc = s.enc := rfl
@[simp] theorem setTxnEnc_enTaken (e : EncRegs) : (s.setTxnEnc e).enTaken = s.enTaken := rfl
@[simp] theorem setTxnEnc_dec (e : EncRegs) : (s.setTxnEnc e).dec = s.dec := rfl
@[simp] theorem setTxnEnc_txn (e : EncRegs) : (s.setTxnEnc e).txn = s.txn := rfl
@[simp] theorem setTxnEnc_txnEnc (e : EncRegs) : (s.setTxnEnc e).txnEnc = e := rfl
@[simp] theorem setTxnEnc_txnDec (e : EncRegs) : (s.setTxnEnc e).txnDec = s.txnDec := rfl
@[simp] theorem setTxnEnc_pbuf (e : EncRegs) : (s.setTxnEnc e).pbuf = s.pbuf := rfl
@[simp] theorem setTxnEnc_rxbuf (e : EncRegs) : (s.setTxnEnc e).rxbuf = s.rxbuf := rfl
@[simp] theorem setTxnEnc_chan (e : EncRegs) : (s.setTxnEnc e).chan = s.chan := rfl
@[simp] theorem setTxnEnc_ports (e : EncRegs) : (s.setTxnEnc e).ports = s.ports := rfl
@[simp] theorem setTxnEnc_result (e : EncRegs) : (s.setTxnEnc e).result = s.result := rfl
@[simp] theorem setTxnEnc_script (e : EncRegs) : (s.setTxnEnc e).script = s.script := rfl
@[simp] theorem setTxnEnc_epoch (e : EncRegs) : (s.setTxnEnc e).epoch = s.epoch := rfl
@[simp] theorem setTxnEnc_draws (e : EncRegs) : (s.setTxnEnc e).draws = s.draws := rfl

@[simp] theorem setTxnDec_acc (d : DecUnit) : (s.setTxnDec d).acc = s.acc := rfl
@[simp] theorem setTxnDec_enc (d : DecUnit) : (s.setTxnDec d).enc = s.enc := rfl
@[simp] theorem setTxnDec_enTaken (d : DecUnit) : (s.setTxnDec d).enTaken = s.enTaken := rfl
@[simp] theorem setTxnDec_dec (d : DecUnit) : (s.setTxnDec d).dec = s.dec := rfl
@[simp] theorem setTxnDec_txn (d : DecUnit) : (s.setTxnDec d).txn = s.txn := rfl
@[simp] theorem setTxnDec_txnEnc (d : DecUnit) : (s.setTxnDec d).txnEnc = s.txnEnc := rfl
@[simp] theorem setTxnDec_txnDec (d : DecUnit) : (s.setTxnDec d).txnDec = d := rfl
@[simp] theorem setTxnDec_pbuf (d : DecUnit) : (s.setTxnDec d).pbuf = s.pbuf := rfl
@[simp] theorem setTxnDec_rxbuf (d : DecUnit) : (s.setTxnDec d).rxbuf = s.rxbuf := rfl
@[simp] theorem setTxnDec_chan (d : DecUnit) : (s.setTxnDec d).chan = s.chan := rfl
@[simp] theorem setTxnDec_ports (d : DecUnit) : (s.setTxnDec d).ports = s.ports := rfl
@[simp] theorem setTxnDec_result (d : DecUnit) : (s.setTxnDec d).result = s.result := rfl
@[simp] theorem setTxnDec_script (d : DecUnit) : (s.setTxnDec d).script = s.script := rfl
@[simp] theorem setTxnDec_epoch (d : DecUnit) : (s.setTxnDec d).epoch = s.epoch := rfl
@[simp] theorem setTxnDec_draws (d : DecUnit) : (s.setTxnDec d).draws = s.draws := rfl

@[simp] theorem setChan_acc (c : Channel) : (s.setChan c).acc = s.acc := rfl
@[simp] theorem setChan_enc (c : Channel) : (s.setChan c).enc = s.enc := rfl
@[simp] theorem setChan_enTaken (c : Channel) : (s.setChan c).enTaken = s.enTaken := rfl
@[simp] theorem setChan_dec (c : Channel) : (s.setChan c).dec = s.dec := rfl
@[simp] theorem setChan_txn (c : Channel) : (s.setChan c).txn = s.txn := rfl
@[simp] theorem setChan_txnEnc (c : Channel) : (s.setChan c).txnEnc = s.txnEnc := rfl
@[simp] theorem setChan_txnDec (c : Channel) : (s.setChan c).txnDec = s.txnDec := rfl
@[simp] theorem setChan_pbuf (c : Channel) : (s.setChan c).pbuf = s.pbuf := rfl
@[simp] theorem setChan_rxbuf (c : Channel) : (s.setChan c).rxbuf = s.rxbuf := rfl
@[simp] theorem setChan_chan (c : Channel) : (s.setChan c).chan = c := rfl
@[simp] theorem setChan_ports (c : Channel) : (s.setChan c).ports = s.ports := rfl
@[simp] theorem setChan_result (c : Channel) : (s.setChan c).result = s.result := rfl
@[simp] theorem setChan_script (c : Channel) : (s.setChan c).script = s.script := rfl
@[simp] theorem setChan_epoch (c : Channel) : (s.setChan c).epoch = s.epoch := rfl
@[simp] theorem setChan_draws (c : Channel) : (s.setChan c).draws = s.draws := rfl

@[simp] theorem setPorts_acc (p : InPorts) : (s.setPorts p).acc = s.acc := rfl
@[simp] theorem setPorts_enc (p : InPorts) : (s.setPorts p).enc = s.enc := rfl
@[simp] theorem setPorts_enTaken (p : InPorts) : (s.setPorts p).enTaken = s.enTaken := rfl
@[simp] theorem setPorts_dec (p : InPorts) : (s.setPorts p).dec = s.dec := rfl
@[simp] theorem setPorts_txn (p : InPorts) : (s.setPorts p).txn = s.txn := rfl
@[simp] theorem setPorts_txnEnc (p : InPorts) : (s.setPorts p).txnEnc = s.txnEnc := rfl
@[simp] theorem setPorts_txnDec (p : InPorts) : (s.setPorts p).txnDec = s.txnDec := rfl
@[simp] theorem setPorts_pbuf (p : InPorts) : (s.setPorts p).pbuf = s.pbuf := rfl
@[simp] theorem setPorts_rxbuf (p : InPorts) : (s.setPorts p).rxbuf = s.rxbuf := rfl
@[simp] theorem setPorts_chan (p : InPorts) : (s.setPorts p).chan = s.chan := rfl
@[simp] theorem setPorts_ports (p : InPorts) : (s.setPorts p).ports = p := rfl
@[simp] theorem setPorts_result (p : InPorts) : (s.setPorts p).result = s.result := rfl
@[simp] theorem setPorts_script (p : InPorts) : (s.setPorts p).script = s.script := rfl
@[simp] theorem setPorts_epoch (p : InPorts) : (s.setPorts p).epoch = s.epoch := rfl
@[simp] theorem setPorts_draws (p : InPorts) : (s.setPorts p).draws = s.draws := rfl

@[simp] theorem setScript_acc (l : List Stimulus) : (s.setScript l).acc = s.acc := rfl
@[simp] theorem setScript_enc (l : List Stimulus) : (s.setScript l).enc = s.enc := rfl
@[simp] theorem setScript_enTaken (l : List Stimulus) : (s.setScript l).enTaken = s.enTaken := rfl
@[simp] theorem setScript_dec (l : List Stimulus) : (s.setScript l).dec = s.dec := rfl
@[simp] theorem setScript_txn (l : List Stimulus) : (s.setScript l).txn = s.txn := rfl
@[simp] theorem setScript_txnEnc (l : List Stimulus) : (s.setScript l).txnEnc = s.txnEnc := rfl
@[simp] theorem setScript_txnDec (l : List Stimulus) : (s.setScript l).txnDec = s.txnDec := rfl
@[simp] theorem setScript_pbuf (l : List Stimulus) : (s.setScript l).pbuf = s.pbuf := rfl
@[simp] theorem setScript_rxbuf (l : List Stimulus) : (s.setScript l).rxbuf = s.rxbuf := rfl
@[simp] theorem setScript_chan (l : List Stimulus) : (s.setScript l).chan = s.chan := rfl
@[simp] theorem setScript_ports (l : List Stimulus) : (s.setScript l).ports = s.ports := rfl
@[simp] theorem setScript_result (l : List Stimulus) : (s.setScript l).result = s.result := rfl
@[simp] theorem setScript_script (l : List Stimulus) : (s.setScript l).script = l := rfl
@[simp] theorem setScript_epoch (l : List Stimulus) : (s.setScript l).epoch = s.epoch := rfl
@[simp] theorem setScript_draws (l : List Stimulus) : (s.setScript l).draws = s.draws := rfl

end Sys2Proof.Laws
end

