-- ==== Sys2Proof/Laws/Ops.lean ====
section
/-! SUPPORT. What each shared operation can do, said once, so that proofs cite these and unfold nothing. -/

namespace Sys2Proof.Laws

open Sys2Proof Sys2Proof.Machine

/-- The two things a cycle of the environment can be. -/
theorem nextCycle_cases (c : Channel) :
    (c.future = [] ∧ nextCycle c = (ChanCycle.quiet, c)) ∨
    ∃ e rest, c.future = e :: rest ∧ nextCycle c = (e, { c with inn := c.inn ++ e.arrive, future := rest }) := by
  unfold nextCycle
  cases h : c.future with
  | nil => exact .inl ⟨rfl, rfl⟩
  | cons e rest => exact .inr ⟨e, rest, rfl, rfl⟩

@[simp] theorem nextCycle_out (c : Channel) : (nextCycle c).2.out = c.out := by
  unfold nextCycle; cases c.future <;> rfl

@[simp] theorem chanFlush_out (c : Channel) : (chanFlush c).out = c.out := rfl
@[simp] theorem chanFlush_inn (c : Channel) : (chanFlush c).inn = [] := rfl
@[simp] theorem chanFlush_future (c : Channel) : (chanFlush c).future = c.future := rfl
@[simp] theorem chanPut_out (c : Channel) (b : Byte) : (chanPut c b).out = c.out ++ [b] := rfl
@[simp] theorem chanPut_inn (c : Channel) (b : Byte) : (chanPut c b).inn = c.inn := rfl
@[simp] theorem chanPut_future (c : Channel) (b : Byte) : (chanPut c b).future = c.future := rfl

/-- Taking an error writes the block's code and failed phase, whichever block it is. -/
theorem takeError_eq (b : Block) (e : ErrorName) (s : State) :
    takeError b e s = match b with
      | .encoder => { s with enc := { s.enc with err := some e, phase := .fail } }
      | .decoder => { s with dec := { s.dec with err := some e, phase := .fail, rpbuf := [] } }
      | .transaction => { s with txn := { s.txn with err := some e, state := .failed, busy := false } }
      | .txnEncoder => { s with txnEnc := { s.txnEnc with err := some e, phase := .fail } }
      | .txnDecoder => { s with txnDec := { s.txnDec with err := some e, phase := .fail, rpbuf := [] } } := by
  cases b <;> rfl

/-- Leaving an error clears the block's code and nothing else. -/
theorem leaveError_eq (b : Block) (s : State) :
    leaveError b s = match b with
      | .encoder => { s with enc := { s.enc with err := none } }
      | .decoder => { s with dec := { s.dec with err := none } }
      | .transaction => { s with txn := { s.txn with err := none } }
      | .txnEncoder => { s with txnEnc := { s.txnEnc with err := none } }
      | .txnDecoder => { s with txnDec := { s.txnDec with err := none } } := by
  cases b <;> rfl

/-- A failed exchange: the transaction's registers and the result, nothing else. -/
theorem txnFail_eq (e : ErrorName) (s : State) :
    txnFail e s =
      { s with txn := { s.txn with err := some e, state := .failed, busy := false }, result := some (.err e) } := rfl

/-- Adding bytes to an accumulator one by one. -/
theorem foldl_accAddStep (bytes : List Byte) (s : State) :
    bytes.foldl (fun t b => accAddStep b t) s =
      { s with acc := s.acc + BitVec.ofNat 16 (sumBytes bytes) } := by
  induction bytes generalizing s with
  | nil => simp [sumBytes]
  | cons b bs ih =>
    rw [List.foldl_cons, ih]
    have h : s.acc + b.setWidth 16 + BitVec.ofNat 16 (sumBytes bs) =
        s.acc + BitVec.ofNat 16 (sumBytes (b :: bs)) := by
      apply BitVec.eq_of_toNat_eq
      simp [sumBytes, BitVec.toNat_add, BitVec.toNat_setWidth]
      omega
    simp only [accAddStep, accAdd, h]

/-- A whole checksum run: `ACC` is the sum modulo 65536 and the list operand has been taken. -/
theorem accRun_eq (s : State) :
    accRun s = { s with acc := BitVec.ofNat 16 (sumBytes s.ports.acBytes), ports := { s.ports with acBytes := [] } } := by
  simp [accRun, foldl_accAddStep, accClearStep]

/-- `neg16` of the accumulator of a sum is the frame checksum. -/
theorem accResult_ofNat (n : Nat) : accResult (BitVec.ofNat 16 n) = neg16 n := by
  apply BitVec.eq_of_toNat_eq
  simp [accResult, neg16, BitVec.toNat_neg]

/-- The three outcomes of `enc_start`. -/
theorem encStart_cases (adr fn : Byte) (plen : U16) (r : EncRegs) :
    (15 < adr.toNat ∧ encStart adr fn plen r =
      { r with adr := adr, fn := fn, idx := 0, acc := 0, err := some .invalidAddress, phase := .fail }) ∨
    (adr.toNat ≤ 15 ∧ 2047 < plen.toNat ∧ encStart adr fn plen r =
      { r with adr := adr, fn := fn, idx := 0, acc := 0, err := some .payloadTooLarge, phase := .fail }) ∨
    (adr.toNat ≤ 15 ∧ plen.toNat ≤ 2047 ∧ encStart adr fn plen r =
      { r with adr := adr, fn := fn, idx := 0, acc := 0, err := none,
               hexlen := BitVec.ofNat 12 (2 * plen.toNat), phase := .emit }) := by
  unfold encStart
  by_cases h1 : adr.toNat > Config.addrMax
  · left; simp only [h1, if_true]; exact ⟨h1, rfl⟩
  · right
    have h1' : adr.toNat ≤ 15 := by simp [Config.addrMax] at h1; omega
    by_cases h2 : 2 * plen.toNat > Config.maxHexlen
    · left; simp only [h1, h2, if_true, if_false]
      exact ⟨h1', by simp [Config.maxHexlen] at h2; omega, rfl⟩
    · right; simp only [h1, h2, if_false]
      exact ⟨h1', by simp [Config.maxHexlen] at h2; omega, rfl⟩

/-- What `enc_emit` leaves alone. -/
theorem encEmit_frame (p : Nat → Byte) (r : EncRegs) :
    (encEmit p r).adr = r.adr ∧ (encEmit p r).fn = r.fn ∧ (encEmit p r).hexlen = r.hexlen ∧
    (encEmit p r).err = r.err ∧ (encEmit p r).idx = r.idx + 1 := ⟨rfl, rfl, rfl, rfl, rfl⟩

/-- Everything a `dec_byte` can do to the phase, the position and the error code: the decoder was not accepting and
nothing happened, or a check failed and the position stayed, or the byte was accepted. -/
theorem decByte_cases (c : Byte) (d : DecUnit) :
    (decAccepts d.phase = false ∧ decByte c d = d) ∨
    (decAccepts d.phase = true ∧ (decByte c d).phase = .fail ∧ (decByte c d).pos = d.pos ∧
      ((decByte c d).err = some .malformedFrame ∨ (decByte c d).err = some .invalidHexDigit ∨
       (decByte c d).err = some .lengthChecksumMismatch ∨ (decByte c d).err = some .checksumMismatch)) ∨
    (decAccepts d.phase = true ∧ (decByte c d).phase ≠ .fail ∧ (decByte c d).phase ≠ .idle ∧
      (decByte c d).pos = d.pos + 1 ∧ (decByte c d).err = d.err) := by
  have hdig : ∀ (c : Byte) (v : Nibble) (d : DecUnit), (decHeaderDigit c v d).pos = d.pos ∧
      (decHeaderDigit c v d).err = d.err := by
    intro c v d; unfold decHeaderDigit; dsimp only; split <;> exact ⟨rfl, rfl⟩
  cases hp : d.phase with
  | idle => exact .inl ⟨rfl, by simp [decByte, hp]⟩
  | ok => exact .inl ⟨rfl, by simp [decByte, hp]⟩
  | fail => exact .inl ⟨rfl, by simp [decByte, hp]⟩
  | soi =>
    right; by_cases h : c = Config.soi
    · right; simp [decByte, hp, h, decAdvance, decAccepts]
    · left; simp [decByte, hp, h, decTakeError, decAccepts]
  | eoi =>
    right; by_cases h : c = Config.eoi
    · right; simp [decByte, hp, h, decAdvance, decAccepts]
    · left; simp [decByte, hp, h, decTakeError, decAccepts]
  | hdr =>
    right
    simp only [decByte, hp, decAccepts, decHeader]
    cases decodeNibble c with
    | none => left; simp [decTakeError]
    | some v =>
      dsimp only
      by_cases h12 : d.pos = 12
      · rw [if_pos h12]
        unfold decLength
        cases lengthFieldCheck (decHeaderDigit c v d).len with
        | none => left; simp [decTakeError, hdig]
        | some l =>
          dsimp only
          by_cases hodd : l.toNat % 2 = 1
          · left; simp [hodd, decTakeError, hdig]
          · right; simp only [hodd, if_false, decAdvance, hdig]
            by_cases hz : l = 0 <;> simp only [hz, if_true, if_false] <;> simp
      · right; rw [if_neg h12]; simp [decAdvance, hdig]
  | pay =>
    right
    simp only [decByte, hp, decAccepts, decPayload]
    cases decodeNibble c with
    | none => left; simp [decTakeError]
    | some v =>
      right; dsimp only
      have hph (b : Bool) : (if b = true then DPhase.chk else DPhase.pay) ≠ .fail ∧
          (if b = true then DPhase.chk else DPhase.pay) ≠ .idle := by cases b <;> simp
      have := hph (decide (d.pos.toNat = 12 + decN d))
      simp only [decide_eq_true_eq] at this
      by_cases hj : (d.pos.toNat - 13) % 2 = 0
      · simp only [hj, if_true]; exact ⟨trivial, this.1, this.2, rfl, rfl⟩
      · simp only [hj, if_false]; exact ⟨trivial, this.1, this.2, rfl, rfl⟩
  | chk =>
    right
    simp only [decByte, hp, decAccepts, decChecksum]
    cases decodeNibble c with
    | none => left; simp [decTakeError]
    | some v =>
      dsimp only
      split
      · split
        · right; simp [decAdvance]
        · left; simp [decTakeError]
      · right; simp [decAdvance]

@[simp] theorem decRun_nil (d : DecUnit) : decRun [] d = (d, []) := rfl

theorem decRun_cons_accepting {d : DecUnit} (c : Byte) (cs : List Byte) (h : decAccepts d.phase = true) :
    decRun (c :: cs) d = decRun cs (decByte c d) := by simp [decRun, h]

/-- A decoder that accepts no byte takes none. -/
theorem decRun_at_rest {d : DecUnit} (cs : List Byte) (h : decAccepts d.phase = false) :
    decRun cs d = (d, cs) := by cases cs <;> simp [decRun, h]

/-- The bytes a run leaves are the end of the bytes it was offered. -/
theorem decRun_rest (cs : List Byte) (d : DecUnit) : ∃ taken, cs = taken ++ (decRun cs d).2 := by
  induction cs generalizing d with
  | nil => exact ⟨[], rfl⟩
  | cons c cs ih =>
    cases h : decAccepts d.phase with
    | false => exact ⟨[], by simp [decRun, h]⟩
    | true =>
      obtain ⟨t, ht⟩ := ih (decByte c d)
      exact ⟨c :: t, by rw [decRun_cons_accepting c cs h, List.cons_append, ← ht]⟩

/-- A run over two lists is a run over the first and, with all of it taken, over the second. -/
theorem decRun_append (as bs : List Byte) (d : DecUnit) :
    decRun (as ++ bs) d =
      ((decRun ((decRun as d).2 ++ bs) (decRun as d).1).1, (decRun ((decRun as d).2 ++ bs) (decRun as d).1).2) := by
  induction as generalizing d with
  | nil => rfl
  | cons c cs ih =>
    cases h : decAccepts d.phase with
    | false => simp [decRun, h]
    | true => rw [List.cons_append, decRun_cons_accepting c _ h, decRun_cons_accepting c cs h, ih]

/-- If the decoder still accepts bytes after a run, the run took everything. -/
theorem decRun_all_taken (cs : List Byte) (d : DecUnit) (h : decAccepts (decRun cs d).1.phase = true) :
    (decRun cs d).2 = [] := by
  induction cs generalizing d with
  | nil => rfl
  | cons c cs ih =>
    cases ha : decAccepts d.phase with
    | false => simp [decRun, ha] at h
    | true => rw [decRun_cons_accepting c cs ha] at h ⊢; exact ih _ h

/-- Bytes offered to a decoder at rest change nothing. -/
theorem decOffer_at_rest (bytes : List Byte) (s : State) (h : decAccepts s.dec.phase = false) :
    decOffer bytes s = s := by simp [decOffer, decRun_at_rest bytes h, h]

/-- Offered bytes change the stand-alone decoder and, where they end a decode, the result. -/
theorem decOffer_eq (bytes : List Byte) (s : State) :
    decOffer bytes s = { s with dec := (decRun bytes s.dec).1, result := (decOffer bytes s).result } := by
  unfold decOffer; dsimp only; split <;> rfl

/-- Presenting a character changes the stand-alone decoder and the result, nothing else. -/
theorem presentCharacter_eq (c : Byte) (s : State) :
    presentCharacter c s =
      { s with
        dec := decByte c s.dec
        result := some (match decodeNibble c with | some n => .ok (.nibble n) | none => .err .invalidHexDigit) } := by
  have hrun : (decRun [c] s.dec).1 = decByte c s.dec := by
    cases h : decAccepts s.dec.phase with
    | true => rw [decRun_cons_accepting c [] h, decRun_nil]
    | false =>
      rw [decRun_at_rest _ h]
      rcases decByte_cases c s.dec with h1 | h1 | h1
      · exact h1.2.symm
      · rw [h] at h1; exact absurd h1.1 (by decide)
      · rw [h] at h1; exact absurd h1.1 (by decide)
  unfold presentCharacter; rw [decOffer_eq, hrun]; rfl

/-- Bytes stored one after another: they stand in `RXBUF` from `T_CNT` on, in order, and nothing else moves. -/
theorem foldl_txnStore (bytes : List Byte) (s : State) :
    ∃ m, bytes.foldl txnStore s =
        { s with rxbuf := m, txn := { s.txn with cnt := s.txn.cnt + BitVec.ofNat 13 bytes.length } } ∧
      (Memory.wf s.rxbuf = true → Memory.wf m = true) ∧
      (Memory.bounded Config.rxbufSize s.rxbuf = true → Memory.bounded Config.rxbufSize m = true) ∧
      (s.txn.cnt.toNat + bytes.length ≤ Config.rxbufSize →
        ∀ k, Memory.read m k = if s.txn.cnt.toNat ≤ k ∧ k < s.txn.cnt.toNat + bytes.length
          then bytes[k - s.txn.cnt.toNat]? else Memory.read s.rxbuf k) := by
  induction bytes generalizing s with
  | nil => exact ⟨s.rxbuf, by simp, id, id, fun _ k => by rw [if_neg]; simp⟩
  | cons b bs ih =>
    obtain ⟨m, e, hw, hb, hr⟩ := ih (txnStore s b)
    refine ⟨m, ?_, fun h => hw (wf_writeIn _ _ _ _ h), fun h => hb (bounded_writeIn _ _ _ _ h), fun hle k => ?_⟩
    · rw [List.foldl_cons, e]
      have : s.txn.cnt + 1 + BitVec.ofNat 13 bs.length = s.txn.cnt + BitVec.ofNat 13 (b :: bs).length := by
        apply BitVec.eq_of_toNat_eq; simp [BitVec.toNat_add]; omega
      simp only [txnStore, this]
    · rw [List.length_cons] at hle ⊢
      have hsz : Config.rxbufSize = 4113 := rfl
      have hc : (txnStore s b).txn.cnt.toNat = s.txn.cnt.toNat + 1 := by
        show (s.txn.cnt + 1).toNat = _
        rw [BitVec.toNat_add]; simp; omega
      rw [hc] at hr
      rw [hr (by omega) k]
      have hbuf : Memory.read (txnStore s b).rxbuf k =
          if s.txn.cnt.toNat = k ∧ s.txn.cnt.toNat < Config.rxbufSize then some b else Memory.read s.rxbuf k :=
        read_writeIn _ _ _ _ _
      rw [hbuf]
      by_cases h1 : s.txn.cnt.toNat + 1 ≤ k ∧ k < s.txn.cnt.toNat + 1 + bs.length
      · rw [if_pos h1, if_pos (by omega), show k - s.txn.cnt.toNat = (k - (s.txn.cnt.toNat + 1)) + 1 by omega,
          List.getElem?_cons_succ]
      · rw [if_neg h1]
        by_cases h2 : s.txn.cnt.toNat = k
        · rw [if_pos ⟨h2, by omega⟩, if_pos (by omega), show k - s.txn.cnt.toNat = 0 by omega, List.getElem?_cons_zero]
        · rw [if_neg (by omega), if_neg (by omega)]

/-- A read that consumes all of `ch.in`. -/
theorem txnDrain_eq (s : State) :
    ∃ m, txnDrain s =
        { s with
          chan := { s.chan with inn := [] }
          rxbuf := m
          txn := { s.txn with cnt := s.txn.cnt + BitVec.ofNat 13 s.chan.inn.length } } ∧
      (Memory.wf s.rxbuf = true → Memory.wf m = true) ∧
      (Memory.bounded Config.rxbufSize s.rxbuf = true → Memory.bounded Config.rxbufSize m = true) ∧
      (s.txn.cnt.toNat + s.chan.inn.length ≤ Config.rxbufSize →
        ∀ k, Memory.read m k = if s.txn.cnt.toNat ≤ k ∧ k < s.txn.cnt.toNat + s.chan.inn.length
          then s.chan.inn[k - s.txn.cnt.toNat]? else Memory.read s.rxbuf k) := by
  obtain ⟨m, e, h⟩ := foldl_txnStore s.chan.inn s
  exact ⟨m, by rw [txnDrain, e]; rfl, h⟩

/-- The outcomes of one cycle of a read. -/
theorem txnRead_cases (limit : Nat) (c : ChanCycle) (s : State) :
    (c.rxErr = true ∧ txnRead limit c s = txnFail .ioError
      { s with chan := { s.chan with inn := Config.inputAfterIoError s.draws }, draws := s.draws + 1 }) ∨
    (c.rxErr = false ∧ s.chan.inn = [] ∧ txnRead limit c s = txnDeadline limit c s) ∨
    (c.rxErr = false ∧ ∃ b rest, s.chan.inn = b :: rest ∧
      ∃ t, t = { s with
          chan := { s.chan with inn := rest }
          rxbuf := Memory.writeIn Config.rxbufSize s.rxbuf s.txn.cnt.toNat b
          txn := { s.txn with cnt := s.txn.cnt + 1 } } ∧
        txnRead limit c s = if t.txn.cnt.toNat = limit then t else txnDeadline limit c t) := by
  unfold txnRead
  cases hr : c.rxErr with
  | true => exact .inl ⟨rfl, rfl⟩
  | false =>
    right
    cases hi : s.chan.inn with
    | nil => exact .inl ⟨rfl, rfl, rfl⟩
    | cons b rest => exact .inr ⟨rfl, b, rest, rfl, _, rfl, rfl⟩

/-- The outcomes of the deadline rule. -/
theorem txnDeadline_cases (limit : Nat) (c : ChanCycle) (s : State) :
    (s.txn.timeout ≤ s.txn.timer ∧ s.txn.cnt.toNat + s.chan.inn.length < limit ∧
      txnDeadline limit c s = txnFail .responseTimeout (txnDrain s)) ∨
    ((s.txn.timer < s.txn.timeout ∨ limit ≤ s.txn.cnt.toNat + s.chan.inn.length) ∧
      ((c.tick = true ∧ s.txn.timer.toNat < 4294967295 ∧
          txnDeadline limit c s = s.setTxn { s.txn with timer := s.txn.timer + 1 }) ∨
       ((c.tick = false ∨ s.txn.timer.toNat = 4294967295) ∧ txnDeadline limit c s = s))) := by
  unfold txnDeadline
  by_cases h : s.txn.timer ≥ s.txn.timeout ∧ s.txn.cnt.toNat + s.chan.inn.length < limit
  · exact .inl ⟨h.1, h.2, by rw [if_pos h]⟩
  · right
    rw [if_neg h]
    have hb := s.txn.timer.isLt
    refine ⟨?_, ?_⟩
    · by_cases h1 : s.txn.timeout ≤ s.txn.timer
      · right; have : ¬ _ := fun h2 => h ⟨h1, h2⟩; omega
      · left; simpa [BitVec.not_le] using h1
    · by_cases ht : c.tick = true ∧ s.txn.timer.toNat < 4294967295
      · exact .inl ⟨ht.1, ht.2, by rw [if_pos ht]⟩
      · refine .inr ⟨?_, by rw [if_neg ht]⟩
        cases hc : c.tick with
        | false => exact .inl rfl
        | true => right; have : ¬ _ := fun h2 => ht ⟨hc, h2⟩; omega

/-- The outcomes of one clock cycle of the transaction, by what it was doing. -/
theorem txnCycle_cases (s : State) :
    (s.txn.busy = true ∧ txnCycle s = txnAdvance (nextCycle s.chan).1 (txnArrive s)) ∨
    (s.txn.busy = false ∧ s.ports.tStart = true ∧ txnCycle s = txnStart (txnArrive s)) ∨
    (s.txn.busy = false ∧ s.ports.tStart = false ∧ txnCycle s = txnArrive s) := by
  unfold txnCycle
  have h1 : (txnArrive s).txn = s.txn := rfl
  have h2 : (txnArrive s).ports = s.ports := rfl
  simp only [h1, h2]
  by_cases hb : s.txn.busy = true
  · exact .inl ⟨hb, by rw [if_pos hb]⟩
  · right
    have hb' : s.txn.busy = false := by simpa using hb
    rw [if_neg hb]
    by_cases ht : s.ports.tStart = true
    · exact .inl ⟨hb', ht, by rw [if_pos ht]⟩
    · exact .inr ⟨hb', by simpa using ht, by rw [if_neg ht]⟩

/-- The outcomes of the caller's `PBUF` port in one cycle. -/
theorem pbufCycle_cases (s : State) :
    (s.ports.pbWe = false ∧ pbufCycle s = .next s) ∨
    (s.ports.pbWe = true ∧ s.ports.pbIdx.toNat = 2047 ∧ pbufCycle s = .fault .noSuchPbufIndex) ∨
    (s.ports.pbWe = true ∧ s.ports.pbIdx.toNat < 2047 ∧ pbufHeld s = true ∧ pbufCycle s = .next (pbufLateWrite s)) ∨
    (s.ports.pbWe = true ∧ s.ports.pbIdx.toNat < 2047 ∧ pbufHeld s = false ∧
      pbufCycle s = .next { s with pbuf := Memory.writeIn 2047 s.pbuf s.ports.pbIdx.toNat s.ports.pbData }) := by
  have hlt := s.ports.pbIdx.isLt
  unfold pbufCycle
  cases hw : s.ports.pbWe with
  | false => exact .inl ⟨rfl, by simp⟩
  | true =>
    right
    by_cases hi : s.ports.pbIdx.toNat < 2047
    · right
      cases hh : pbufHeld s with
      | true => exact .inl ⟨rfl, hi, rfl, by simp [Config.pbufSize, hi]⟩
      | false => exact .inr ⟨rfl, hi, rfl, by simp [Config.pbufSize, hi]⟩
    · exact .inl ⟨rfl, by omega, by simp [Config.pbufSize, hi]⟩

/-- All that bytes which are no word can do: received bytes are offered to the stand-alone decoder (R83), and one at
the place of a character is decoded besides; anything else is refused. -/
theorem receive_cases (place : Place) (bytes : List Byte) (s : State) :
    (place = .character ∧ ∃ c, bytes = [c] ∧ receive place bytes s = .next (presentCharacter c s)) ∨
    ((place = .character ∨ ∃ f, place = .field f) ∧ receive place bytes s = .next (decOffer bytes s)) ∨
    (place ≠ .character ∧ (∀ f, place ≠ .field f) ∧ receive place bytes s = .refused .noSuchWord) := by
  cases place with
  | character =>
    match bytes with
    | [c] => exact .inl ⟨rfl, c, rfl, rfl⟩
    | [] | _ :: _ :: _ => exact .inr (.inl ⟨.inl rfl, rfl⟩)
  | field f => exact .inr (.inl ⟨.inr ⟨f, rfl⟩, rfl⟩)
  | _ => exact .inr (.inr ⟨by simp, by simp, rfl⟩)

end Sys2Proof.Laws
end

