-- ==== Sys2Proof/Laws/Cycles.lean ====
section
/-! SUPPORT. What one clock cycle of each block can change, for proofs about clock edges and about `execute`. -/

namespace Sys2Proof.Laws

open Sys2Proof Sys2Proof.Machine Sys2Proof.Safety

/-- `t` differs from `s` in nothing outside the transaction but in `ch.out` going on (R46, R47). -/
def TxnKeeps (s t : State) : Prop :=
  t.acc = s.acc ∧ t.enc = s.enc ∧ t.enTaken = s.enTaken ∧ t.dec = s.dec ∧ t.pbuf = s.pbuf ∧ t.ports = s.ports ∧
  t.script = s.script ∧ t.epoch = s.epoch ∧ s.chan.out <+: t.chan.out

/-- `enc_start` in its closed form (R145). -/
theorem encStart_eq (a f : Byte) (p : U16) (r : EncRegs) : encStart a f p r = encStarted a f p r := by
  rcases encStart_cases a f p r with ⟨h, e⟩ | ⟨h, h2, e⟩ | ⟨h, h2, e⟩
  · rw [e, encStarted, if_pos h]
  · rw [e, encStarted, if_neg (by omega), if_pos (by omega)]
  · rw [e, encStarted, if_neg (by omega), if_neg (by omega)]

/-- What an encoder offers, under its name in the statements. -/
theorem encData_eq (s : State) (r : EncRegs) : encData (payloadByte s) r = encOffered s r := rfl

/-- `enc_emit` in its closed form (R145). -/
theorem encEmit_eq (s : State) (r : EncRegs) : encEmit (payloadByte s) r = encEmitted (encOffered s r) r := by
  simp only [encEmit, encEmitted, encData_eq, accAdd]

/-- `de_in_ready` is what the phase says (R176). -/
theorem inReady_eq (a b : Bool) (c : Byte) (d : DecUnit) : (decOutputs a b c d).inReady = decAccepts d.phase := rfl

/-- A clock stimulus without a `PBUF` write is one cycle of each block. -/
theorem step_clock (s : State) (p : InPorts) (rest : List Stimulus) (h : s.script = .clock p :: rest) (hw : p.pbWe = false) :
   step s = .next (txnCycle (decCycle (encCycle (accCycle { s with script := rest, ports := p })))) := by
  simp [step, fetch, h, clockEdge, pbufCycle, State.setPorts, State.setScript, hw]

/-- With nothing presented, a step is the clock edge of a clock stimulus at the levels held (R22; log 4). -/
theorem step_held (s : State) (h : s.script = []) : step s = step { s with script := [.clock s.ports] } := by
  obtain ⟨_, _, _, _, _, _, _, _, _, _, _, _, script, _, _⟩ := s
  subst h; rfl

theorem TxnKeeps.refl (s : State) : TxnKeeps s s := by simp [TxnKeeps]

theorem TxnKeeps.trans {s t u : State} (h : TxnKeeps s t) (k : TxnKeeps t u) : TxnKeeps s u := by
  obtain ⟨h1, h2, h3, h4, h5, h6, h7, h8, h9⟩ := h
  obtain ⟨k1, k2, k3, k4, k5, k6, k7, k8, k9⟩ := k
  exact ⟨k1.trans h1, k2.trans h2, k3.trans h3, k4.trans h4, k5.trans h5, k6.trans h6, k7.trans h7, k8.trans h8,
    h9.trans k9⟩

theorem txnArrive_keeps (s : State) : TxnKeeps s (txnArrive s) := by simp [TxnKeeps, txnArrive, State.setChan]

theorem txnStart_keeps (s : State) : TxnKeeps s (txnStart s) := by simp [TxnKeeps, txnStart]

theorem txnFail_keeps (e : ErrorName) (s : State) : TxnKeeps s (txnFail e s) := by simp [TxnKeeps, txnFail_eq]

theorem txnWrite_keeps (c : ChanCycle) (s : State) : TxnKeeps s (txnWrite c s) := by
  unfold txnWrite
  split
  · split
    · exact txnFail_keeps _ _
    · exact .refl s
  · dsimp only
    split_ifs <;> simp [TxnKeeps, txnFail_eq, txnPut, State.setTxn]
  all_goals exact .refl s

theorem txnDrain_keeps (s : State) : TxnKeeps s (txnDrain s) := by
  obtain ⟨m, e, _⟩ := txnDrain_eq s
  rw [e]; simp [TxnKeeps]

theorem txnDeadline_keeps (limit : Nat) (c : ChanCycle) (s : State) : TxnKeeps s (txnDeadline limit c s) := by
  rcases txnDeadline_cases limit c s with ⟨_, _, e⟩ | ⟨_, ⟨_, _, e⟩ | ⟨_, e⟩⟩
  · rw [e]; exact (txnDrain_keeps s).trans (txnFail_keeps _ _)
  · rw [e]; simp [TxnKeeps, State.setTxn]
  · rw [e]; exact .refl s

theorem txnRead_keeps (limit : Nat) (c : ChanCycle) (s : State) : TxnKeeps s (txnRead limit c s) := by
  rcases txnRead_cases limit c s with ⟨_, e⟩ | ⟨_, _, e⟩ | ⟨_, b, r, _, t, ht, e⟩
  · rw [e]; simp [TxnKeeps, txnFail_eq]
  · rw [e]; exact txnDeadline_keeps _ c s
  · have hst : TxnKeeps s t := by subst ht; simp [TxnKeeps]
    rw [e]
    split
    · exact hst
    · exact hst.trans (txnDeadline_keeps _ c t)

theorem txnLength_keeps (s : State) : TxnKeeps s (txnLength s) := by
  unfold txnLength
  split
  · exact txnFail_keeps _ _
  · simp [TxnKeeps, State.setTxn]

theorem txnDecode_keeps (s : State) : TxnKeeps s (txnDecode s) := by
  have hd : ∀ d, TxnKeeps s (s.setTxnDec d) := fun d => by simp [TxnKeeps, State.setTxnDec]
  unfold txnDecode
  dsimp only
  split
  · simp [TxnKeeps, State.setTxn, State.setTxnDec, State.setResult]
  · split
    · exact (hd _).trans (txnFail_keeps _ _)
    · exact hd _
  all_goals exact hd _

theorem txnAdvance_keeps (c : ChanCycle) (s : State) : TxnKeeps s (txnAdvance c s) := by
  unfold txnAdvance
  split
  · exact txnWrite_keeps c s
  · simp [TxnKeeps, txnSent, State.setTxn]
  · split
    · exact txnRead_keeps _ c s
    · exact txnLength_keeps s
  · split
    · exact txnRead_keeps _ c s
    · exact txnDecode_keeps s
  all_goals exact .refl s

/-- What a cycle of the transaction never touches, and that it only appends to `ch.out`. -/
theorem txnCycle_keeps (s : State) : TxnKeeps s (txnCycle s) := by
  rcases txnCycle_cases s with ⟨_, e⟩ | ⟨_, _, e⟩ | ⟨_, _, e⟩
  · rw [e]; exact (txnArrive_keeps s).trans (txnAdvance_keeps _ _)
  · rw [e]; exact (txnArrive_keeps s).trans (txnStart_keeps _)
  · rw [e]; exact txnArrive_keeps s

/-- The same of any number of cycles. -/
theorem txnRun_keeps (count : Nat) (s : State) : TxnKeeps s (txnRun count s) := by
  induction count generalizing s with
  | zero => exact .refl s
  | succ n ih =>
    unfold txnRun
    split
    · exact (txnCycle_keeps s).trans (ih _)
    · exact .refl s

/-- A cycle of the stand-alone decoder changes that decoder alone. -/
theorem decCycle_frame (s : State) : ∃ d, decCycle s = { s with dec := d } := by
  unfold decCycle; split
  · exact ⟨_, rfl⟩
  · exact ⟨_, rfl⟩

/-- A cycle of the stand-alone encoder changes that encoder and the bytes taken from it. -/
theorem encCycle_frame (s : State) : ∃ r l, encCycle s = { s with enc := r, enTaken := l } := by
  unfold encCycle; dsimp only
  split_ifs <;> (try simp only [encStartStep, encEmitStep]) <;> first | exact ⟨_, _, rfl⟩ | (split_ifs <;> exact ⟨_, _, rfl⟩)

/-- A cycle of the accumulator changes `ACC` alone. -/
theorem accCycle_frame (s : State) : ∃ a, accCycle s = { s with acc := a } := by
  unfold accCycle accClearStep accAddStep; split_ifs <;> exact ⟨_, rfl⟩

end Sys2Proof.Laws
end

