-- ==== Sys2Proof/Laws/Numbers.lean ====
section
/-! SUPPORT. The bit-field definitions of the leaf blocks as arithmetic on numbers: each lemma ties a definition of the
machine to the notation the statements use. -/

namespace Sys2Proof.Laws

open Sys2Proof Sys2Proof.Machine Sys2Proof.Safety

set_option maxRecDepth 20000 in
theorem encodeNibble_eq (n : Nibble) : encodeNibble n = hexCharOf n.toNat := by revert n; decide

set_option maxRecDepth 20000 in
theorem hexValue_eq (c : Byte) : hexValue c = (decodeNibble c).map BitVec.toNat := by revert c; decide

set_option maxRecDepth 20000 in
theorem joinNibbles_eq (h l : Nibble) : joinNibbles h l = BitVec.ofNat 8 (16 * h.toNat + l.toNat) := by
  revert h l; decide

set_option maxRecDepth 20000 in
theorem joinNibbles_append (h l : Nibble) : joinNibbles h l = h ++ l := by revert h l; decide

theorem highNibble_toNat (b : Byte) : (highNibble b).toNat = b.toNat / 16 := by
  have := b.isLt
  simp [highNibble, BitVec.extractLsb'_toNat, Nat.shiftRight_eq_div_pow]; omega

theorem lowNibble_toNat (b : Byte) : (lowNibble b).toNat = b.toNat % 16 := by
  simp [lowNibble, BitVec.extractLsb'_toNat]

theorem encodeByte_eq (b : Byte) : encodeByte b = [hexCharOf (b.toNat / 16), hexCharOf (b.toNat % 16)] := by
  simp [encodeByte, encodeNibble_eq, highNibble_toNat, lowNibble_toNat]

theorem encodeU16_eq (v : U16) : encodeU16 v =
    [hexCharOf (v.toNat / 4096), hexCharOf (v.toNat / 256 % 16), hexCharOf (v.toNat / 16 % 16),
     hexCharOf (v.toNat % 16)] := by
  have hv := v.isLt
  have h1 : (BitVec.extractLsb' 12 4 v).toNat = v.toNat / 4096 := by
    simp [BitVec.extractLsb'_toNat, Nat.shiftRight_eq_div_pow]; omega
  have h2 : (BitVec.extractLsb' 8 4 v).toNat = v.toNat / 256 % 16 := by
    simp [BitVec.extractLsb'_toNat, Nat.shiftRight_eq_div_pow]
  have h3 : (BitVec.extractLsb' 4 4 v).toNat = v.toNat / 16 % 16 := by
    simp [BitVec.extractLsb'_toNat, Nat.shiftRight_eq_div_pow]
  have h4 : (BitVec.extractLsb' 0 4 v).toNat = v.toNat % 16 := by simp [BitVec.extractLsb'_toNat]
  simp [encodeU16, encodeNibble_eq, h1, h2, h3, h4]

theorem charOperand_eq (p : InPorts) (k : Nat) : charOperand p k = BitVec.ofNat 8 (p.hxDecIn.toNat / 256 ^ k) := by
  apply BitVec.eq_of_toNat_eq
  simp [charOperand, BitVec.extractLsb'_toNat, Nat.shiftRight_eq_div_pow, pow_mul]

/-- Shifting in at the bottom is multiplying and adding. -/
theorem shiftLeft_or (a b n : Nat) (hb : b < 2 ^ n) : a <<< n ||| b = a * 2 ^ n + b := by
  rw [← Nat.shiftLeft_add_eq_or_of_lt hb, Nat.shiftLeft_eq]

theorem shiftInNibble_append (r : U16) (v : Nibble) : shiftInNibble r v = r.extractLsb' 0 12 ++ v := by
  have hv := v.isLt
  apply BitVec.eq_of_toNat_eq
  simp only [shiftInNibble, BitVec.toNat_or, BitVec.toNat_shiftLeft, BitVec.toNat_setWidth, BitVec.toNat_append,
    BitVec.extractLsb'_toNat, Nat.shiftRight_zero]
  rw [Nat.mod_eq_of_lt (a := v.toNat) (by omega), shiftLeft_or _ _ 4 hv, Nat.shiftLeft_eq]
  have h : r.toNat * 2 ^ 4 % 2 ^ 16 = (r.toNat % 2 ^ 12) <<< 4 := by rw [Nat.shiftLeft_eq]; omega
  rw [h, shiftLeft_or _ _ 4 hv]

theorem shiftInNibble_toNat (r : U16) (v : Nibble) :
    (shiftInNibble r v).toNat = 16 * (r.toNat % 4096) + v.toNat := by
  have hv := v.isLt
  rw [shiftInNibble_append]
  simp only [BitVec.toNat_append, BitVec.extractLsb'_toNat, Nat.shiftRight_zero]
  rw [shiftLeft_or _ _ 4 hv]; omega

theorem decodeU16_toNat {a b c d : Byte} {w x y z : Nibble} (ha : decodeNibble a = some w)
    (hb : decodeNibble b = some x) (hc : decodeNibble c = some y) (hd : decodeNibble d = some z) :
    (decodeU16 a b c d).map BitVec.toNat =
      some (4096 * w.toNat + 256 * x.toNat + 16 * y.toNat + z.toNat) := by
  simp only [decodeU16, ha, hb, hc, hd, Option.map_some, Option.some.injEq]
  have := w.isLt; have := x.isLt; have := y.isLt; have := z.isLt
  have e : (BitVec.setWidth 16 w <<< 12) ||| (BitVec.setWidth 16 x <<< 8) ||| (BitVec.setWidth 16 y <<< 4) |||
      BitVec.setWidth 16 z = shiftInNibble (shiftInNibble (shiftInNibble (BitVec.setWidth 16 w) x) y) z := by
    simp only [shiftInNibble, BitVec.shiftLeft_or_distrib, ← BitVec.shiftLeft_add]
  rw [e]
  simp only [shiftInNibble_toNat, BitVec.toNat_setWidth]
  omega

theorem hexValues_one (a : Byte) : hexValues [a] = (decodeNibble a).map BitVec.toNat := by
  simp [hexValues, hexValue_eq]; cases decodeNibble a <;> simp

theorem hexValues_two (a b : Byte) : hexValues [a, b] = (decodeByte a b).map BitVec.toNat := by
  simp only [hexValues, List.foldl, hexValue_eq, decodeByte]
  cases decodeNibble a <;> cases decodeNibble b <;> simp [joinNibbles_eq]
  rename_i x y; have := x.isLt; have := y.isLt; omega

theorem hexValues_four (a b c d : Byte) : hexValues [a, b, c, d] = (decodeU16 a b c d).map BitVec.toNat := by
  cases ha : decodeNibble a with
  | none => simp [hexValues, hexValue_eq, decodeU16, ha]
  | some w =>
    cases hb : decodeNibble b with
    | none => simp [hexValues, hexValue_eq, decodeU16, ha, hb]
    | some x =>
      cases hc : decodeNibble c with
      | none => simp [hexValues, hexValue_eq, decodeU16, ha, hb, hc]
      | some y =>
        cases hd : decodeNibble d with
        | none => simp [hexValues, hexValue_eq, decodeU16, ha, hb, hc, hd]
        | some z =>
          rw [decodeU16_toNat ha hb hc hd]
          simp [hexValues, hexValue_eq, ha, hb, hc, hd]; omega

theorem nibbleCheck_lt (n : Nat) : nibbleCheck n < 16 := Nat.mod_lt _ (by omega)

theorem lengthChecksum_toNat (l : Len12) : (lengthChecksum l).toNat = nibbleCheck l.toNat := by
  have h1 := l.isLt
  simp [lengthChecksum, nibbleCheck, BitVec.extractLsb'_toNat, Nat.shiftRight_eq_div_pow, BitVec.toNat_neg,
    BitVec.toNat_add]
  omega

theorem lengthWordOf_toNat (k : Nibble) (l : Len12) : (lengthWordOf k l).toNat = 4096 * k.toNat + l.toNat := by
  have h1 := l.isLt; have h2 := k.isLt
  simp only [lengthWordOf, BitVec.toNat_or, BitVec.toNat_shiftLeft, BitVec.toNat_setWidth]
  rw [Nat.mod_eq_of_lt (a := k.toNat) (by omega), Nat.mod_eq_of_lt (a := l.toNat) (by omega)]
  have := shiftLeft_or k.toNat l.toNat 12 (by omega)
  rw [Nat.mod_eq_of_lt (by rw [Nat.shiftLeft_eq]; omega), this]; omega

theorem lchk_toNat (w : U16) : (lchk w).toNat = w.toNat / 4096 := by
  have := w.isLt
  simp [lchk, BitVec.extractLsb'_toNat, Nat.shiftRight_eq_div_pow]; omega

theorem lenid_toNat (w : U16) : (lenid w).toNat = w.toNat % 4096 := by simp [lenid, BitVec.extractLsb'_toNat]

/-- `length_field_check` as arithmetic. -/
theorem lengthFieldCheck_eq (w : U16) :
    lengthFieldCheck w =
      if w.toNat / 4096 = nibbleCheck (w.toNat % 4096) then some (BitVec.ofNat 12 w.toNat) else none := by
  have h2 : lenid w = BitVec.ofNat 12 w.toNat := by apply BitVec.eq_of_toNat_eq; simp [lenid_toNat]
  have h : lchk w = lengthChecksum (lenid w) ↔ w.toNat / 4096 = nibbleCheck (w.toNat % 4096) := by
    rw [← BitVec.toNat_inj, lchk_toNat, lengthChecksum_toNat, lenid_toNat]
  unfold lengthFieldCheck; rw [← h2]; simp only [h]

theorem frameChecksum_toNat (bytes : List Byte) : (frameChecksum bytes).toNat = checksumOf bytes := by
  simp [frameChecksum, neg16, checksumOf]

theorem checksumOf_lt (bytes : List Byte) : checksumOf bytes < 65536 := Nat.mod_lt _ (by omega)

end Sys2Proof.Laws
end

