-- ==== Sys2Proof/Laws/PerInstr.lean ====
section
/-! SUPPORT. Statements about every word of the table as syntax, one lemma per word. -/

/-- Decoding the encoding of a well-formed word gives the word back. -/
def Sys2Proof.Laws.RoundTrip.Statement (i : Sys2Proof.Instr) : Prop :=
  Sys2Proof.wellFormed i = true →
    Sys2Proof.decodeWord (Sys2Proof.encodeWord i).1 (Sys2Proof.encodeWord i).2 = .instr i

namespace Sys2Proof.Laws

/-- The length word's two bytes give back its two fields. -/
theorem lengthWord_fields (k : Nibble) (l : Len12) :
    Machine.highNibble (k ++ l.extractLsb' 8 4) = k ∧
    Machine.lowNibble (k ++ l.extractLsb' 8 4) ++ l.extractLsb' 0 8 = l := by
  have happ (a : Nat) (b : Nat) (hb : b < 2 ^ 8) : a <<< 8 ||| b = a * 256 + b := by
    rw [← Nat.shiftLeft_add_eq_or_of_lt hb, Nat.shiftLeft_eq]
  have happ4 (a : Nat) (b : Nat) (hb : b < 2 ^ 4) : a <<< 4 ||| b = a * 16 + b := by
    rw [← Nat.shiftLeft_add_eq_or_of_lt hb, Nat.shiftLeft_eq]
  have hk := k.isLt
  have hl := l.isLt
  constructor <;> apply BitVec.eq_of_toNat_eq
  · simp only [Machine.highNibble, BitVec.extractLsb'_toNat, BitVec.toNat_append, Nat.shiftRight_eq_div_pow]
    rw [happ4 _ _ (by omega)]; omega
  · simp only [Machine.lowNibble, BitVec.extractLsb'_toNat, BitVec.toNat_append, Nat.shiftRight_eq_div_pow]
    rw [happ4 _ _ (by omega), happ _ _ (by omega)]; omega

end Sys2Proof.Laws

open Sys2Proof

theorem Sys2Proof.Laws.RoundTrip.encodeNibble : Laws.RoundTrip.Statement (.encodeNibble) := fun _ => rfl
theorem Sys2Proof.Laws.RoundTrip.encodeByte : Laws.RoundTrip.Statement (.encodeByte) := fun _ => rfl
theorem Sys2Proof.Laws.RoundTrip.encodeU16 : Laws.RoundTrip.Statement (.encodeU16) := fun _ => rfl
theorem Sys2Proof.Laws.RoundTrip.decodeNibble : Laws.RoundTrip.Statement (.decodeNibble) := fun _ => rfl
theorem Sys2Proof.Laws.RoundTrip.decodeByte : Laws.RoundTrip.Statement (.decodeByte) := fun _ => rfl
theorem Sys2Proof.Laws.RoundTrip.decodeU16 : Laws.RoundTrip.Statement (.decodeU16) := fun _ => rfl
theorem Sys2Proof.Laws.RoundTrip.lengthChecksum : Laws.RoundTrip.Statement (.lengthChecksum) := fun _ => rfl
theorem Sys2Proof.Laws.RoundTrip.lengthFieldBuild : Laws.RoundTrip.Statement (.lengthFieldBuild) := fun _ => rfl
theorem Sys2Proof.Laws.RoundTrip.lengthFieldCheck : Laws.RoundTrip.Statement (.lengthFieldCheck) := fun _ => rfl
theorem Sys2Proof.Laws.RoundTrip.frameChecksum : Laws.RoundTrip.Statement (.frameChecksum) := fun _ => rfl
theorem Sys2Proof.Laws.RoundTrip.frameChecksumVerify : Laws.RoundTrip.Statement (.frameChecksumVerify) := fun _ => rfl
theorem Sys2Proof.Laws.RoundTrip.encode : Laws.RoundTrip.Statement (.encode) := fun _ => rfl
theorem Sys2Proof.Laws.RoundTrip.decode : Laws.RoundTrip.Statement (.decode) := fun _ => rfl
theorem Sys2Proof.Laws.RoundTrip.execute : Laws.RoundTrip.Statement (.execute) := fun _ => rfl
theorem Sys2Proof.Laws.RoundTrip.hexchar0 : Laws.RoundTrip.Statement (.hexchar0) := fun _ => rfl
theorem Sys2Proof.Laws.RoundTrip.hexchar1 : Laws.RoundTrip.Statement (.hexchar1) := fun _ => rfl
theorem Sys2Proof.Laws.RoundTrip.hexchar2 : Laws.RoundTrip.Statement (.hexchar2) := fun _ => rfl
theorem Sys2Proof.Laws.RoundTrip.hexchar3 : Laws.RoundTrip.Statement (.hexchar3) := fun _ => rfl
theorem Sys2Proof.Laws.RoundTrip.hexchar4 : Laws.RoundTrip.Statement (.hexchar4) := fun _ => rfl
theorem Sys2Proof.Laws.RoundTrip.hexchar5 : Laws.RoundTrip.Statement (.hexchar5) := fun _ => rfl
theorem Sys2Proof.Laws.RoundTrip.hexchar6 : Laws.RoundTrip.Statement (.hexchar6) := fun _ => rfl
theorem Sys2Proof.Laws.RoundTrip.hexchar7 : Laws.RoundTrip.Statement (.hexchar7) := fun _ => rfl
theorem Sys2Proof.Laws.RoundTrip.hexchar8 : Laws.RoundTrip.Statement (.hexchar8) := fun _ => rfl
theorem Sys2Proof.Laws.RoundTrip.hexchar9 : Laws.RoundTrip.Statement (.hexchar9) := fun _ => rfl
theorem Sys2Proof.Laws.RoundTrip.hexcharUpperA : Laws.RoundTrip.Statement (.hexcharUpperA) := fun _ => rfl
theorem Sys2Proof.Laws.RoundTrip.hexcharUpperB : Laws.RoundTrip.Statement (.hexcharUpperB) := fun _ => rfl
theorem Sys2Proof.Laws.RoundTrip.hexcharUpperC : Laws.RoundTrip.Statement (.hexcharUpperC) := fun _ => rfl
theorem Sys2Proof.Laws.RoundTrip.hexcharUpperD : Laws.RoundTrip.Statement (.hexcharUpperD) := fun _ => rfl
theorem Sys2Proof.Laws.RoundTrip.hexcharUpperE : Laws.RoundTrip.Statement (.hexcharUpperE) := fun _ => rfl
theorem Sys2Proof.Laws.RoundTrip.hexcharUpperF : Laws.RoundTrip.Statement (.hexcharUpperF) := fun _ => rfl
theorem Sys2Proof.Laws.RoundTrip.hexcharLowerA : Laws.RoundTrip.Statement (.hexcharLowerA) := fun _ => rfl
theorem Sys2Proof.Laws.RoundTrip.hexcharLowerB : Laws.RoundTrip.Statement (.hexcharLowerB) := fun _ => rfl
theorem Sys2Proof.Laws.RoundTrip.hexcharLowerC : Laws.RoundTrip.Statement (.hexcharLowerC) := fun _ => rfl
theorem Sys2Proof.Laws.RoundTrip.hexcharLowerD : Laws.RoundTrip.Statement (.hexcharLowerD) := fun _ => rfl
theorem Sys2Proof.Laws.RoundTrip.hexcharLowerE : Laws.RoundTrip.Statement (.hexcharLowerE) := fun _ => rfl
theorem Sys2Proof.Laws.RoundTrip.hexcharLowerF : Laws.RoundTrip.Statement (.hexcharLowerF) := fun _ => rfl
theorem Sys2Proof.Laws.RoundTrip.frameSoi : Laws.RoundTrip.Statement (.frameSoi) := fun _ => rfl
theorem Sys2Proof.Laws.RoundTrip.frameVer (c0 c1 : Byte) : Laws.RoundTrip.Statement (.frameVer c0 c1) := fun _ => rfl
theorem Sys2Proof.Laws.RoundTrip.frameAdr (c0 c1 : Byte) : Laws.RoundTrip.Statement (.frameAdr c0 c1) := fun _ => rfl
theorem Sys2Proof.Laws.RoundTrip.frameDev (c0 c1 : Byte) : Laws.RoundTrip.Statement (.frameDev c0 c1) := fun _ => rfl
theorem Sys2Proof.Laws.RoundTrip.frameFn (c0 c1 : Byte) : Laws.RoundTrip.Statement (.frameFn c0 c1) := fun _ => rfl
theorem Sys2Proof.Laws.RoundTrip.frameLength (c0 c1 c2 c3 : Byte) : Laws.RoundTrip.Statement (.frameLength c0 c1 c2 c3) := fun _ => rfl
theorem Sys2Proof.Laws.RoundTrip.frameInfo (chars : List Byte) : Laws.RoundTrip.Statement (.frameInfo chars) := fun _ => rfl
theorem Sys2Proof.Laws.RoundTrip.frameChksum (c0 c1 c2 c3 : Byte) : Laws.RoundTrip.Statement (.frameChksum c0 c1 c2 c3) := fun _ => rfl
theorem Sys2Proof.Laws.RoundTrip.frameEoi : Laws.RoundTrip.Statement (.frameEoi) := fun _ => rfl
theorem Sys2Proof.Laws.RoundTrip.lengthWord (k : Nibble) (l : Len12) : Laws.RoundTrip.Statement (.lengthWord k l) := by
  intro _; simp only [encodeWord, decodeWord]; rw [(Laws.lengthWord_fields k l).1, (Laws.lengthWord_fields k l).2]
theorem Sys2Proof.Laws.RoundTrip.errIoError : Laws.RoundTrip.Statement (.errIoError) := fun _ => rfl
theorem Sys2Proof.Laws.RoundTrip.errResponseTimeout : Laws.RoundTrip.Statement (.errResponseTimeout) := fun _ => rfl
theorem Sys2Proof.Laws.RoundTrip.errInvalidHexDigit : Laws.RoundTrip.Statement (.errInvalidHexDigit) := fun _ => rfl
theorem Sys2Proof.Laws.RoundTrip.errLengthChecksumMismatch : Laws.RoundTrip.Statement (.errLengthChecksumMismatch) := fun _ => rfl
theorem Sys2Proof.Laws.RoundTrip.errChecksumMismatch : Laws.RoundTrip.Statement (.errChecksumMismatch) := fun _ => rfl
theorem Sys2Proof.Laws.RoundTrip.errMalformedFrame : Laws.RoundTrip.Statement (.errMalformedFrame) := fun _ => rfl
theorem Sys2Proof.Laws.RoundTrip.errInvalidAddress : Laws.RoundTrip.Statement (.errInvalidAddress) := fun _ => rfl
theorem Sys2Proof.Laws.RoundTrip.errPayloadTooLarge : Laws.RoundTrip.Statement (.errPayloadTooLarge) := fun _ => rfl
theorem Sys2Proof.Laws.RoundTrip.errTruncatedFrame : Laws.RoundTrip.Statement (.errTruncatedFrame) := fun _ => rfl
theorem Sys2Proof.Laws.RoundTrip.tStateIdle : Laws.RoundTrip.Statement (.tStateIdle) := fun _ => rfl
theorem Sys2Proof.Laws.RoundTrip.tStateSent : Laws.RoundTrip.Statement (.tStateSent) := fun _ => rfl
theorem Sys2Proof.Laws.RoundTrip.tStateAwaitingHeader : Laws.RoundTrip.Statement (.tStateAwaitingHeader) := fun _ => rfl
theorem Sys2Proof.Laws.RoundTrip.tStateAwaitingPayload : Laws.RoundTrip.Statement (.tStateAwaitingPayload) := fun _ => rfl
theorem Sys2Proof.Laws.RoundTrip.tStateComplete : Laws.RoundTrip.Statement (.tStateComplete) := fun _ => rfl
theorem Sys2Proof.Laws.RoundTrip.tStateFailed : Laws.RoundTrip.Statement (.tStateFailed) := fun _ => rfl
end

