-- ==== Sys2Proof/Tests/Slice0.lean ====
section
/-! SUPPORT. Tests: ill-formed words refused by each well-formedness check; every word's decoding from bits written out
from the spec's tables; one step of each word against the spec's vectors (spec/95_test_vectors.md, by section, unless
a rule is named); and, for every statement with hypotheses, states that meet them. -/

set_option maxRecDepth 4000

namespace Sys2Proof.Tests

open Sys2Proof Sys2Proof.Machine Sys2Proof.Safety

/-! ### Well-formedness: each check refuses something -/

theorem test_wf_field_digit : wellFormed (.frameVer 0x47 0x30) = false ∧ wellFormed (.frameAdr 0x30 0x47) = false ∧
    wellFormed (.frameDev 0x2F 0x30) = false ∧ wellFormed (.frameFn 0x30 0x3A) = false := by decide

theorem test_wf_length_digit : wellFormed (.frameLength 0x30 0x30 0x30 0x67) = false := by decide

theorem test_wf_length_checksum : wellFormed (.frameLength 0x31 0x30 0x30 0x30) = false := by decide

theorem test_wf_length_odd : wellFormed (.frameLength 0x46 0x30 0x30 0x31) = false := by decide

theorem test_wf_info_digit : wellFormed (.frameInfo [0x30, 0x7E]) = false := by decide

theorem test_wf_info_odd : wellFormed (.frameInfo [0x30]) = false := by decide

theorem test_wf_info_long : wellFormed (.frameInfo (List.replicate 4096 0x30)) = false := by
  simp only [wellFormed, List.length_replicate]
  exact Bool.and_false _

theorem test_wf_chksum_digit : wellFormed (.frameChksum 0x46 0x44 0x39 0x60) = false := by decide

theorem test_wf_length_word : wellFormed (.lengthWord 0x1 0x000) = false ∧ wellFormed (.lengthWord 0xD 0x004) = false := by
  decide

theorem test_wf_good : wellFormed (.frameVer 0x32 0x30) = true ∧ wellFormed (.frameLength 0x43 0x30 0x30 0x34) = true ∧
    wellFormed (.frameInfo [0x61, 0x42]) = true ∧ wellFormed (.lengthWord 0xD 0x012) = true := by decide

/-! ### Decoding: every word of the table, its bits as spec/opcode_table.json has them -/

theorem test_decode_hex_operations :
    decodeWord .operation [0b00000001] = .instr .encodeNibble ∧ decodeWord .operation [0b00000010] = .instr .encodeByte ∧
    decodeWord .operation [0b00000011] = .instr .encodeU16 ∧ decodeWord .operation [0b00000100] = .instr .decodeNibble ∧
    decodeWord .operation [0b00000101] = .instr .decodeByte ∧ decodeWord .operation [0b00000110] = .instr .decodeU16 := by
  decide

theorem test_decode_other_operations :
    decodeWord .operation [0b00000111] = .instr .lengthChecksum ∧
    decodeWord .operation [0b00001000] = .instr .lengthFieldBuild ∧
    decodeWord .operation [0b00001001] = .instr .lengthFieldCheck ∧
    decodeWord .operation [0b00001010] = .instr .frameChecksum ∧
    decodeWord .operation [0b00001011] = .instr .frameChecksumVerify ∧ decodeWord .operation [0b00001100] = .instr .encode ∧
    decodeWord .operation [0b00001101] = .instr .decode ∧ decodeWord .operation [0b00001110] = .instr .execute := by
  decide

theorem test_decode_digits :
    decodeWord .character [0b00110000] = .instr .hexchar0 ∧ decodeWord .character [0b00110001] = .instr .hexchar1 ∧
    decodeWord .character [0b00110010] = .instr .hexchar2 ∧ decodeWord .character [0b00110011] = .instr .hexchar3 ∧
    decodeWord .character [0b00110100] = .instr .hexchar4 ∧ decodeWord .character [0b00110101] = .instr .hexchar5 ∧
    decodeWord .character [0b00110110] = .instr .hexchar6 ∧ decodeWord .character [0b00110111] = .instr .hexchar7 ∧
    decodeWord .character [0b00111000] = .instr .hexchar8 ∧ decodeWord .character [0b00111001] = .instr .hexchar9 := by
  decide

theorem test_decode_letters :
    decodeWord .character [0b01000001] = .instr .hexcharUpperA ∧ decodeWord .character [0b01000010] = .instr .hexcharUpperB ∧
    decodeWord .character [0b01000011] = .instr .hexcharUpperC ∧ decodeWord .character [0b01000100] = .instr .hexcharUpperD ∧
    decodeWord .character [0b01000101] = .instr .hexcharUpperE ∧ decodeWord .character [0b01000110] = .instr .hexcharUpperF ∧
    decodeWord .character [0b01100001] = .instr .hexcharLowerA ∧ decodeWord .character [0b01100010] = .instr .hexcharLowerB ∧
    decodeWord .character [0b01100011] = .instr .hexcharLowerC ∧ decodeWord .character [0b01100100] = .instr .hexcharLowerD ∧
    decodeWord .character [0b01100101] = .instr .hexcharLowerE ∧ decodeWord .character [0b01100110] = .instr .hexcharLowerF := by
  decide

/-- The fields of `~20014600C0041234FCD2\r`. -/
theorem test_decode_fields :
    decodeWord (.field .soi) [0b01111110] = .instr .frameSoi ∧
    decodeWord (.field .ver) [0b00110010, 0b00110000] = .instr (.frameVer 0x32 0x30) ∧
    decodeWord (.field .adr) [0b00110000, 0b00110001] = .instr (.frameAdr 0x30 0x31) ∧
    decodeWord (.field .dev) [0b00110100, 0b00110110] = .instr (.frameDev 0x34 0x36) ∧
    decodeWord (.field .fn) [0b00110000, 0b00110000] = .instr (.frameFn 0x30 0x30) ∧
    decodeWord (.field .length) [0b01000011, 0b00110000, 0b00110000, 0b00110100] =
      .instr (.frameLength 0x43 0x30 0x30 0x34) ∧
    decodeWord (.field .info) [0b00110001, 0b00110010, 0b00110011, 0b00110100] =
      .instr (.frameInfo [0x31, 0x32, 0x33, 0x34]) ∧
    decodeWord (.field .chksum) [0b01000110, 0b01000011, 0b01000100, 0b00110010] =
      .instr (.frameChksum 0x46 0x43 0x44 0x32) ∧
    decodeWord (.field .eoi) [0b00001101] = .instr .frameEoi := by decide

theorem test_decode_length_word :
    decodeWord .lengthWord [0b01001111, 0b11111110] = .instr (.lengthWord 0x4 0xFFE) ∧
    decodeTableWord 16 0b1110000000000010 = some (.lengthWord 0xE 0x002) := by decide

theorem test_decode_errors :
    decodeWord .errorCode [0b00000001] = .instr .errIoError ∧ decodeWord .errorCode [0b00000010] = .instr .errResponseTimeout ∧
    decodeWord .errorCode [0b00000011] = .instr .errInvalidHexDigit ∧
    decodeWord .errorCode [0b00000100] = .instr .errLengthChecksumMismatch ∧
    decodeWord .errorCode [0b00000101] = .instr .errChecksumMismatch ∧
    decodeWord .errorCode [0b00000110] = .instr .errMalformedFrame ∧
    decodeWord .errorCode [0b00000111] = .instr .errInvalidAddress ∧
    decodeWord .errorCode [0b00001000] = .instr .errPayloadTooLarge ∧
    decodeWord .errorCode [0b00001001] = .instr .errTruncatedFrame := by decide

theorem test_decode_states :
    decodeWord .stateCode [0b00000000] = .instr .tStateIdle ∧ decodeWord .stateCode [0b00000001] = .instr .tStateSent ∧
    decodeWord .stateCode [0b00000010] = .instr .tStateAwaitingHeader ∧
    decodeWord .stateCode [0b00000011] = .instr .tStateAwaitingPayload ∧
    decodeWord .stateCode [0b00000100] = .instr .tStateComplete ∧ decodeWord .stateCode [0b00000101] = .instr .tStateFailed := by
  decide

theorem test_decode_rejects :
    decodeWord .operation [0x00] = .rejected .reservedOperation ∧ decodeWord .operation [0x0F] = .rejected .reservedOperation ∧
    decodeWord .character [0x47] = .rejected .notInAlphabet ∧ decodeWord (.field .soi) [0x21] = .rejected .notMarker ∧
    decodeWord (.field .adr) [0x30] = .rejected .wrongLength ∧ decodeWord .errorCode [0x00] = .rejected .notAnErrorCode ∧
    decodeWord .errorCode [0x0A] = .rejected .notAnErrorCode ∧ decodeWord .stateCode [0x06] = .rejected .reservedState := by
  decide

/-! ### Helpers -/

/-- The state after a word. -/
def after (i : Instr) (s : State) : State :=
  match exec i s with
  | .next t => t
  | .fault _ | .refused _ => s

/-- The reset state with these input levels. -/
def withPorts (p : InPorts) : State := { State.reset with ports := p }

/-- The reset state with this stand-alone decoder. -/
def withDec (d : DecUnit) : State := { State.reset with dec := d }

/-- A decoder in this phase at this position, nothing else known. -/
def decAt (phase : DPhase) (pos : Pos) : DecUnit := { DecUnit.atReset with phase := phase, pos := pos }

/-- A decoder past the length word 0xC004 (N = 4). -/
def decBody (phase : DPhase) (pos : Pos) : DecUnit := { decAt phase pos with len := 0xC004 }

/-- The reset state with this transaction. -/
def withTxn (t : TxnRegs) : State := { State.reset with txn := t }

/-- A busy transaction in this state. -/
def busyIn (x : TState) : TxnRegs := { TxnRegs.atReset with state := x, busy := true, timeout := 100 }

/-- The reset state with these coming channel cycles. -/
def withFuture (l : List ChanCycle) (s : State) : State := { s with chan := { s.chan with future := l } }

/-- A buffer holding this list from index 0 on. -/
def holding (l : List Byte) : Memory := (List.range l.length).zip l

/-- `~2000464F0000FD9A\r`, the spec's worked frame (section 1.1). -/
def frameA : List Byte :=
  [0x7E, 0x32, 0x30, 0x30, 0x30, 0x34, 0x36, 0x34, 0x46, 0x30, 0x30, 0x30, 0x30, 0x46, 0x44, 0x39, 0x41, 0x0D]

/-- `~20014642E00201FD35\r` (section 3.1). -/
def frameB : List Byte :=
  [0x7E, 0x32, 0x30, 0x30, 0x31, 0x34, 0x36, 0x34, 0x32, 0x45, 0x30, 0x30, 0x32, 0x30, 0x31, 0x46, 0x44, 0x33, 0x35,
   0x0D]

/-! ### One step of each word -/

/-- 2.1, 2.2 -/
theorem test_encode_nibble :
    (after .encodeNibble (withPorts { InPorts.low with hxEncIn := 0xFFFA })).result = some (.ok (.chars [0x41])) := by decide

theorem test_encode_byte :
    (after .encodeByte (withPorts { InPorts.low with hxEncIn := 0x124F })).result = some (.ok (.chars [0x34, 0x46])) := by decide

theorem test_encode_u16 :
    (after .encodeU16 (withPorts { InPorts.low with hxEncIn := 0xFD9A })).result =
      some (.ok (.chars [0x46, 0x44, 0x39, 0x41])) := by decide

/-- 2.3: `a` is 10, `G` is refused -/
theorem test_decode_nibble :
    (after .decodeNibble (withPorts { InPorts.low with hxDecIn := 0x61 })).result = some (.ok (.nibble 10)) ∧
    (after .decodeNibble (withPorts { InPorts.low with hxDecIn := 0x47 })).result = some (.err .invalidHexDigit) := by decide

/-- 2.3: `4f`, `0G` -/
theorem test_decode_byte :
    (after .decodeByte (withPorts { InPorts.low with hxDecIn := 0x3466 })).result = some (.ok (.byte 0x4F)) ∧
    (after .decodeByte (withPorts { InPorts.low with hxDecIn := 0x3047 })).result = some (.err .invalidHexDigit) := by decide

/-- 2.3: `FD9A`, `12G4` -/
theorem test_decode_u16 :
    (after .decodeU16 (withPorts { InPorts.low with hxDecIn := 0x46443941 })).result = some (.ok (.u16 0xFD9A)) ∧
    (after .decodeU16 (withPorts { InPorts.low with hxDecIn := 0x31324734 })).result = some (.err .invalidHexDigit) := by decide

/-- 2.4 -/
theorem test_length_checksum :
    (after .lengthChecksum (withPorts { InPorts.low with lcLen := 0x012 })).result = some (.ok (.nibble 0xD)) ∧
    (after .lengthChecksum (withPorts { InPorts.low with lcLen := 0x0F1 })).result = some (.ok (.nibble 0)) := by decide

theorem test_length_field_build :
    (after .lengthFieldBuild (withPorts { InPorts.low with lcLen := 0xFFE })).result = some (.ok (.u16 0x4FFE)) := by decide

theorem test_length_field_check :
    (after .lengthFieldCheck (withPorts { InPorts.low with lcWordIn := 0x4FFE })).result = some (.ok (.len12 0xFFE)) ∧
    (after .lengthFieldCheck (withPorts { InPorts.low with lcWordIn := 0xD004 })).result =
      some (.err .lengthChecksumMismatch) := by decide

theorem test_length_word :
    (after (.lengthWord 0xE 0x020) State.reset).result = some (.ok (.len12 0x020)) ∧
    (after (.lengthWord 0x1 0x000) State.reset).result = some (.err .lengthChecksumMismatch) := by decide

/-- 2.5: `2000464F0000` -/
theorem test_frame_checksum :
    (after .frameChecksum (withPorts { InPorts.low with acBytes := (frameA.drop 1).take 12 })).result =
      some (.ok (.u16 0xFD9A)) := by decide

theorem test_frame_checksum_verify :
    (after .frameChecksumVerify (withPorts { InPorts.low with acBytes := (frameA.drop 1).take 12, acRx := 0xFD9A })).result =
      some (.ok .unit) ∧
    (after .frameChecksumVerify (withPorts { InPorts.low with acBytes := (frameA.drop 1).take 12, acRx := 0xFD9B })).result =
      some (.err .checksumMismatch) := by decide

/-- 3.1 -/
theorem test_encode :
    (after .encode { withPorts { InPorts.low with enAddr := 1, enFn := 0x42, enPlen := 1 } with pbuf := [(0, 0x01)] }).result =
      some (.ok (.frame frameB)) := by decide

theorem test_encode_refuses :
    (after .encode (withPorts { InPorts.low with enAddr := 16, enFn := 0x4F, enPlen := 2048 })).result =
      some (.err .invalidAddress) := by decide

/-- 3.2 -/
theorem test_decode :
    (after .decode (withPorts { InPorts.low with deBytes := frameB })).result =
      some (.ok (.reply { version := 0x20, address := 0x01, deviceType := 0x46, status := 0x42, payload := [0x01] })) := by
  decide

/-- 3.3: 17 bytes -/
theorem test_decode_truncated :
    (after .decode (withPorts { InPorts.low with deBytes := frameA.take 17 })).dec.err = some .truncatedFrame ∧
    (after .decode (withPorts { InPorts.low with deBytes := frameA.take 17 })).dec.pos = 17 := by decide

/-- An exchange that sends frame A and gets frame B as its reply. -/
def exchange : State :=
  withFuture (ChanCycle.quiet :: (List.replicate 18 taking ++ [delivering frameB]))
    (withPorts { InPorts.low with tFn := 0x4F, tTimeout := 100 })

/-- section 4: the reply's status is passed on, and the request stands on the wire -/
theorem test_execute :
    (after .execute exchange).result =
      some (.ok (.reply { version := 0x20, address := 0x01, deviceType := 0x46, status := 0x42, payload := [0x01] })) ∧
    (after .execute exchange).chan.out = frameA := by decide

/-- X15: the flush happens, nothing is written -/
theorem test_execute_bad_address :
    let s := { withPorts { InPorts.low with tAddr := 16 } with chan := { out := [], inn := [0x6A, 0x75], future := [] } }
    (after .execute s).result = some (.err .invalidAddress) ∧ (after .execute s).chan.inn = [] ∧
    (after .execute s).chan.out = [] := by decide

/-- R70: the nibbles of the digits, at a decoder at rest -/
theorem test_digits :
    [Instr.hexchar0, .hexchar1, .hexchar2, .hexchar3, .hexchar4, .hexchar5, .hexchar6, .hexchar7, .hexchar8,
      .hexchar9].map (fun i => (after i State.reset).result) =
    [(0 : Nibble), 1, 2, 3, 4, 5, 6, 7, 8, 9].map (fun v => some (.ok (.nibble v))) := by decide

/-- R70, R71: the nibbles of the letters -/
theorem test_letters :
    [Instr.hexcharUpperA, .hexcharUpperB, .hexcharUpperC, .hexcharUpperD, .hexcharUpperE, .hexcharUpperF, .hexcharLowerA,
      .hexcharLowerB, .hexcharLowerC, .hexcharLowerD, .hexcharLowerE, .hexcharLowerF].map
        (fun i => (after i State.reset).result) =
    [(10 : Nibble), 11, 12, 13, 14, 15, 10, 11, 12, 13, 14, 15].map (fun v => some (.ok (.nibble v))) := by decide

/-- 3.4: a character adds its byte, not its nibble, to `D_ACC` -/
theorem test_character_in_header :
    (after .hexcharUpperC (withDec (decAt .hdr 9))).dec.acc = 0x43 ∧
    (after .hexcharUpperC (withDec (decAt .hdr 9))).dec.len = 0x000C := by decide

/-- 3.4, offset 12 -/
theorem test_character_ends_header :
    (after .hexchar4 (withDec { decAt .hdr 12 with len := 0x0C00, acc := 0x022F })).dec.phase = .pay ∧
    (after .hexchar4 (withDec { decAt .hdr 12 with len := 0x0C00, acc := 0x022F })).dec.acc = 0x0263 := by decide

/-- 3.4, offset 14 -/
theorem test_character_in_payload :
    (after .hexchar2 (withDec { decBody .pay 14 with hi := 1 })).dec.rpbuf = [(0, 0x12)] ∧
    (after .hexchar2 (withDec { decBody .pay 14 with hi := 1 })).dec.plen = 1 := by decide

/-- 3.4, offset 20, and the variant with the sum one higher -/
theorem test_character_ends_checksum :
    (after .hexchar3 (withDec { decBody .chk 20 with chk := 0x0FCD, acc := 0x032D })).dec.phase = .eoi ∧
    (after .hexchar3 (withDec { decBody .chk 20 with chk := 0x0FCD, acc := 0x032E })).dec.err = some .checksumMismatch := by
  decide

/-- R168 -/
theorem test_frame_soi : (after .frameSoi (withDec (decAt .soi 0))).dec = decAt .hdr 1 := by decide

/-- 3.4, offsets 1 to 8 -/
theorem test_frame_ver : (after (.frameVer 0x32 0x30) (withDec (decAt .hdr 1))).dec.ver = 0x20 := by decide

theorem test_frame_adr : (after (.frameAdr 0x30 0x31) (withDec (decAt .hdr 3))).dec.adr = 0x01 := by decide

theorem test_frame_dev : (after (.frameDev 0x34 0x36) (withDec (decAt .hdr 5))).dec.dev = 0x46 := by decide

theorem test_frame_fn : (after (.frameFn 0x34 0x47) (withDec (decAt .hdr 7))).dec.err = some .invalidHexDigit ∧
    (after (.frameFn 0x34 0x66) (withDec (decAt .hdr 7))).dec.fn = 0x4F := by decide

/-- 3.3: `1000` and the odd `F001` -/
theorem test_frame_length :
    (after (.frameLength 0x31 0x30 0x30 0x30) (withDec (decAt .hdr 9))).dec.err = some .lengthChecksumMismatch ∧
    (after (.frameLength 0x46 0x30 0x30 0x31) (withDec (decAt .hdr 9))).dec.err = some .malformedFrame := by decide

/-- 3.4, offsets 13 to 16 -/
theorem test_frame_info :
    (after (.frameInfo [0x31, 0x32, 0x33, 0x34]) (withDec (decBody .pay 13))).dec.rpbuf = [(0, 0x12), (1, 0x34)] ∧
    (after (.frameInfo [0x31, 0x32, 0x33, 0x34]) (withDec (decBody .pay 13))).dec.phase = .chk := by decide

/-- 3.4, offsets 17 to 20 -/
theorem test_frame_chksum :
    (after (.frameChksum 0x46 0x43 0x44 0x33) (withDec { decBody .chk 17 with acc := 0x032D })).dec.phase = .eoi := by decide

/-- 3.4, offset 21 -/
theorem test_frame_eoi :
    (after .frameEoi (withDec (decBody .eoi 21))).dec = decBody .ok 22 := by decide

/-- R232 -/
theorem test_err_io :
    (after .errIoError (withFuture [{ ChanCycle.quiet with rxErr := true }] (withTxn (busyIn .awaitingHeader)))).txn.err =
      some .ioError := by decide

/-- P3, cycle 4 -/
theorem test_err_timeout :
    (after .errResponseTimeout (withTxn { busyIn .awaitingHeader with timer := 3, timeout := 3 })).txn.state = .failed := by decide

/-- R234 -/
theorem test_err_invalid_hex_digit :
    (after .errInvalidHexDigit { withPorts { InPorts.low with deInValid := true, deInData := 0x47 } with dec := decAt .hdr 2 }).dec =
      { decAt .fail 2 with err := some .invalidHexDigit } := by decide

/-- R235, R236 -/
theorem test_err_checksums :
    (after .errLengthChecksumMismatch (withPorts { InPorts.low with lcWordIn := 0x1000 })).result =
      some (.err .lengthChecksumMismatch) ∧
    (after .errChecksumMismatch { withPorts { InPorts.low with acRx := 0xFD9B } with acc := 0x0266 }).result =
      some (.err .checksumMismatch) := by decide

/-- R237, R240 -/
theorem test_err_frame :
    (after .errMalformedFrame { withPorts { InPorts.low with deInValid := true, deInData := 0x21 } with dec := decAt .soi 0 }).dec.err =
      some .malformedFrame ∧
    (after .errTruncatedFrame { withPorts { InPorts.low with deInEnd := true } with dec := decAt .eoi 17 }).dec.err =
      some .truncatedFrame := by decide

/-- R238, R239 -/
theorem test_err_operands :
    (after .errInvalidAddress (withPorts { InPorts.low with enStart := true, enAddr := 16 })).enc.phase = .fail ∧
    (after .errPayloadTooLarge (withPorts { InPorts.low with enStart := true, enPlen := 2048 })).enc.err =
      some .payloadTooLarge := by decide

/-- R204, R199 -/
theorem test_state_idle :
    (after .tStateIdle { withPorts { InPorts.low with tStart := true } with chan := { out := [], inn := [1], future := [] } }).chan.inn =
      [] ∧
    (after .tStateIdle (withPorts { InPorts.low with tStart := true })).txn.busy = true := by decide

theorem test_state_sent : (after .tStateSent (withTxn (busyIn .sent))).txn.state = .awaitingHeader := by decide

/-- R206: a byte beats a deadline -/
theorem test_state_awaiting_header :
    (after .tStateAwaitingHeader
      { withTxn { busyIn .awaitingHeader with cnt := 17, timeout := 0 } with chan := { out := [], inn := [5], future := [] } }).txn =
      { busyIn .awaitingHeader with cnt := 18, timeout := 0 } := by decide

/-- R48, D18: past the deadline a read goes on where every byte it wants is there, and otherwise consumes what is there -/
theorem test_read_deadline :
    (after .tStateAwaitingHeader
      { withTxn { busyIn .awaitingHeader with cnt := 16, timeout := 0 } with chan := { out := [], inn := [5, 6], future := [] } }).txn =
      { busyIn .awaitingHeader with cnt := 17, timeout := 0 } ∧
    (let s := after .tStateAwaitingHeader
      { withTxn { busyIn .awaitingHeader with cnt := 15, timeout := 0 } with chan := { out := [], inn := [5, 6], future := [] } };
      s.txn.err = some .responseTimeout ∧ s.txn.cnt = 17 ∧ s.chan.inn = []) := by decide

/-- R196: the stored reply is decoded -/
theorem test_state_awaiting_payload :
    (after .tStateAwaitingPayload { withTxn { busyIn .awaitingPayload with cnt := 18 } with rxbuf := holding frameA }).txn.status =
      0x4F := by decide

/-- R198: a finished exchange holds its result; R245: the next start clears the error -/
theorem test_state_resting :
    (after .tStateComplete (withTxn { TxnRegs.atReset with state := .complete, status := 7 })).txn.status = 7 ∧
    (after .tStateFailed { withPorts { InPorts.low with tStart := true } with
      txn := { TxnRegs.atReset with state := .failed, err := some .ioError } }).txn.err = none := by decide

/-- The transaction after a step. -/
def txnAfterStep (s : State) : Option TxnRegs :=
  match step s with
  | .next t => some t.txn
  | .fault _ | .refused _ => none

/-- R260: a reset in any state -/
theorem test_step_reset :
    txnAfterStep { withTxn (busyIn .sent) with script := [.reset InPorts.low] } = some TxnRegs.atReset := by decide

/-- R83: a received byte that is no word of the table has its effect; a reserved identifier has none -/
theorem test_step_received_bytes :
    step { withDec (decAt .hdr 2) with script := [.word .character [0x47]] } =
      .next { withDec { decAt .fail 2 with err := some .invalidHexDigit } with result := some (.err .invalidHexDigit) } ∧
    step { withDec (decAt .soi 0) with script := [.word (.field .soi) [0x21]] } =
      .next { withDec { decAt .fail 0 with err := some .malformedFrame } with result := some (.err .malformedFrame) } ∧
    step { State.reset with script := [.word .operation [0x0F]] } = .refused .noSuchWord := ⟨rfl, rfl, rfl⟩

/-- R22, R131: with nothing presented every block is clocked at the levels held -/
theorem test_step_held :
    step (withPorts { InPorts.low with acAdd := true, acByte := 5 }) =
      .next { withPorts { InPorts.low with acAdd := true, acByte := 5 } with acc := 5 } := by rfl

/-- R177: `RPBUF` gives nothing after a refusal; R176: nor do the results while `rst` is high -/
theorem test_no_result_after_failure :
    (decByte 0x47 { decBody .pay 15 with rpbuf := [(0, 0x12)], plen := 1 }).rpbuf = [] ∧
    (outputsInReset (withDec { decBody .ok 22 with plen := 2, ver := 0x20 })).dec.plen = 0 := by decide

/-- R146, R260: the terminator is marked while it is offered, and not while `rst` is high -/
theorem test_last_in_reset :
    let s := { State.reset with enc := { State.reset.enc with phase := .emit, idx := 17 } }
    (outputs s).enc.outLast = true ∧ (outputsInReset s).enc.outLast = false := by decide

/-- log 14: the write that stops -/
theorem test_step_stops :
    step { State.reset with script := [.clock { InPorts.low with pbWe := true, pbIdx := 2047 }] } =
      .fault .noSuchPbufIndex := rfl

/-- The host's fetch: a table word is the very next thing that runs. -/
theorem test_fetch_execute : step (State.reset.withFetchWord 8 0x0E) = exec .execute State.reset := rfl

theorem test_fetch_length_word :
    step (State.reset.withFetchWord 16 0xD012) = exec (.lengthWord 0xD 0x012) State.reset := rfl

/-! ### Witnesses: states and operands that meet the hypotheses of each statement, clause by clause -/

/-- A state about to take a clock edge with these input levels. -/
def clocked (p : InPorts) (s : State) : State := { s with script := [.clock p] }

/-- The reset state with this stand-alone encoder. -/
def withEnc (r : EncRegs) : State := { State.reset with enc := r }

/-- An encoder emitting, at this index. -/
def emitting (idx : Pos) : EncRegs := { EncRegs.atReset with phase := .emit, idx := idx }

theorem witness_HexCodecInversionLaws : decodeByte 0x34 0x66 = some 0x4F := by decide

theorem witness_LengthWordsThatPass :
    ((∀ j < 4, j ≠ 0 → (0xD012 : U16).extractLsb' (4 * j) 4 = (0xD013 : U16).extractLsb' (4 * j) 4) ∧
      (lengthFieldCheck 0xD012).isSome = true ∧ (0xD013 : U16) ≠ 0xD012) ∧
    ((∀ j < 4, j ≠ 3 → (0x0000 : U16).extractLsb' (4 * j) 4 = (0xF000 : U16).extractLsb' (4 * j) 4) ∧
      (lengthFieldCheck 0x0000).isSome = true ∧ (0xF000 : U16) ≠ 0x0000) ∧
    nibbleSum 0xD012 % 16 = nibbleSum 0xD021 % 16 := by decide

theorem witness_FrameChecksumOperations : ([1, 2, 3] : List Byte).Perm [3, 1, 2] ∧ (0x42 : Byte) ≠ 0x51 := by decide

theorem witness_LeafBlockPorts :
    (let p := { InPorts.low with acClear := true, acAdd := true, acByte := 0xFF, pbWe := true, pbIdx := 2046 };
      (clocked p State.reset).script = .clock p :: [] ∧ (p.pbWe = false ∨ p.pbIdx.toNat < 2047)) ∧
    (let p := { InPorts.low with acAdd := true, acByte := 0xFF };
      (clocked p State.reset).script = .clock p :: [] ∧ (p.pbWe = false ∨ p.pbIdx.toNat < 2047)) := by decide

theorem witness_EncodeEmitsTheFrame :
    let s := withPorts { InPorts.low with enAddr := 15, enPlen := 2047 }
    s.enc.phase ≠ .emit ∧ s.ports.enAddr.toNat ≤ 15 ∧ s.ports.enPlen.toNat ≤ 2047 := by decide

theorem witness_EncodeRefusals :
    (withEnc (emitting 0)).enc.phase = .emit ∧
    (let s := withPorts { InPorts.low with enAddr := 16 };
      s.enc.phase ≠ .emit ∧ 15 < s.ports.enAddr.toNat) ∧
    (let s := withPorts { InPorts.low with enAddr := 15, enPlen := 2048 };
      s.enc.phase ≠ .emit ∧ s.ports.enAddr.toNat ≤ 15 ∧ 2047 < s.ports.enPlen.toNat) := by decide

theorem witness_EncodedFrameLayout :
    15 < (16 : Byte).toNat ∧ (15 : Byte).toNat ≤ 15 ∧ 2047 < (List.replicate 2048 (0 : Byte)).length ∧
    (List.replicate 2047 (0 : Byte)).length ≤ 2047 ∧ ([0xFF] : List Byte)[0]? = some 0xFF := by
  simp only [List.length_replicate]
  decide

/-- The frame of these operands, where there is one. -/
def frameOf (a f : Byte) (p : List Byte) : List Byte :=
  match encodeFrame a f p with
  | .ok l => l
  | .err _ => []

theorem witness_FrameFieldsAreWords :
    encodeFrame 0 0x4F [] = .ok frameA ∧ encodeFrame 1 0x42 [0x01] = .ok frameB := by decide

theorem witness_EncoderClockCycle :
    let cycle (p : InPorts) (s : State) : Prop := (clocked p s).script = .clock p :: [] ∧ p.pbWe = false
    (let p := { InPorts.low with enAbort := true };
      cycle p (withEnc (emitting 0)) ∧ p.enAbort = true) ∧
    (let p := { InPorts.low with enStart := true };
      cycle p State.reset ∧ p.enAbort = false ∧ State.reset.enc.phase ≠ .emit ∧ p.enStart = true) ∧
    (cycle InPorts.low State.reset ∧ InPorts.low.enAbort = false ∧ State.reset.enc.phase ≠ .emit ∧
      InPorts.low.enStart = false) ∧
    (let p := { InPorts.low with enOutReady := true };
      cycle p (withEnc (emitting 17)) ∧ p.enAbort = false ∧ (withEnc (emitting 17)).enc.phase = .emit ∧
      p.enOutReady = true) ∧
    (cycle InPorts.low (withEnc (emitting 0)) ∧ (withEnc (emitting 0)).enc.phase = .emit ∧
      InPorts.low.enOutReady = false) := by
  decide

/-- Frame A is accepted with N = 0. -/
theorem accepted_frameA : Accepted frameA 0 := by
  refine ⟨by decide, by decide, by decide, by decide, by decide, by decide, fun i h1 h2 => ?_, by decide⟩
  interval_cases i <;> exact ⟨_, rfl, by decide⟩

/-- Frame B is accepted with N = 2. -/
theorem accepted_frameB : Accepted frameB 2 := by
  refine ⟨by decide, by decide, by decide, by decide, by decide, by decide, fun i h1 h2 => ?_, by decide⟩
  interval_cases i <;> exact ⟨_, rfl, by decide⟩

theorem witness_DecodeAcceptsExactlyValidFrames :
    Accepted frameA 0 ∧ Accepted frameB 2 ∧
    decodeFrame frameA = .ok { version := 0x20, address := 0, deviceType := 0x46, status := 0x4F, payload := [] } 18 :=
  ⟨accepted_frameA, accepted_frameB, by decide⟩

theorem witness_DecodeInvertsEncode :
    encodeFrame 15 0xFF [] = .ok (frameOf 15 0xFF []) ∧ (15 : Byte).toNat ≤ 15 ∧
    (List.replicate 2047 (0 : Byte)).length ≤ 2047 := by
  simp only [List.length_replicate]
  decide

/-- Offsets 1, 8, 13 and 14 (payload); 9 and 12 by value; 9 by case; 15 and 18 (checksum). -/
theorem witness_ChangedHexCharacterIsDetected :
    Accepted frameB 2 ∧
    (frameB[1]? = some 0x32 ∧ (0x33 : Byte) ≠ 0x32 ∧ hexValue 0x33 ≠ none) ∧
    (frameB[8]? = some 0x32 ∧ frameB[13]? = some 0x30 ∧ frameB[14]? = some 0x31 ∧ (0x66 : Byte) ≠ 0x31) ∧
    (frameB[9]? = some 0x45 ∧ hexValue 0x44 ≠ hexValue 0x45 ∧ frameB[12]? = some 0x32 ∧ hexValue 0x33 ≠ hexValue 0x32) ∧
    ((0x65 : Byte) ≠ 0x45 ∧ hexValue 0x65 ≠ none ∧ hexValue 0x65 = hexValue 0x45) ∧
    (frameB[15]? = some 0x46 ∧ hexValue 0x45 ≠ hexValue 0x46 ∧ frameB[18]? = some 0x35 ∧ hexValue 0x36 ≠ hexValue 0x35) :=
  ⟨accepted_frameB, by decide⟩

theorem witness_DamagedFrameIsDetected :
    Accepted frameB 2 ∧ (1 ≤ 1 ∧ 18 ≤ 16 + 2 ∧ hexValue 0x47 = none) ∧ (0x21 : Byte) ≠ 0x7E ∧ (0x0A : Byte) ≠ 0x0D ∧
    (0 < 18 + 2 ∧ 19 < 18 + 2) :=
  ⟨accepted_frameB, by decide⟩

theorem witness_DecoderStartAndEnd :
    let cycle (p : InPorts) (s : State) : Prop :=
      (clocked p s).script = .clock p :: [] ∧ (p.pbWe = false ∨ p.pbIdx.toNat < 2047)
    (let p := { InPorts.low with deStart := true, deInValid := true };
      cycle p (withDec (decAt .fail 7)) ∧ p.deStart = true ∧ p.deInEnd = false) ∧
    (let p := { InPorts.low with deInEnd := true, deInValid := true, deInData := 0x7E };
      cycle p (withDec (decAt .soi 0)) ∧ p.deStart = false ∧ p.deInEnd = true ∧ p.deInValid = true) ∧
    (cycle InPorts.low (withDec (decAt .hdr 1)) ∧ InPorts.low.deStart = false ∧ InPorts.low.deInEnd = false ∧
      InPorts.low.deInValid = false) ∧
    (cycle InPorts.low (withDec (decAt .ok 18)) ∧ (withDec (decAt .ok 18)).dec.phase = .ok ∧
      InPorts.low.deStart = false) := by decide

/-- The levels that offer a byte to the decoder. -/
def offering (c : Byte) : InPorts := { InPorts.low with deInValid := true, deInData := c }

/-- Both markers; a bad digit; header offsets 1, 11 and 12; payload offsets 13 and 16; checksum offsets 17 and 20. -/
theorem witness_DecoderByteSteps :
    let cycle (c : Byte) (d : DecUnit) : Prop :=
      (clocked (offering c) (withDec d)).script = .clock (offering c) :: [] ∧
      ((offering c).pbWe = false ∨ (offering c).pbIdx.toNat < 2047) ∧ (offering c).deStart = false ∧
      (offering c).deInEnd = false ∧ (offering c).deInValid = true
    (cycle 0x7E (decAt .soi 0) ∧ (decAt .soi 0).phase = .soi) ∧ (cycle 0x0A (decAt .eoi 17) ∧ (decAt .eoi 17).phase = .eoi) ∧
    (cycle 0x47 (decAt .hdr 1) ∧ (decAt .hdr 1).phase = .hdr ∧ hexValue 0x47 = none) ∧
    (cycle 0x32 (decAt .hdr 1) ∧ hexValue 0x32 = some 2 ∧ 1 ≤ (decAt .hdr 1).pos.toNat ∧ (decAt .hdr 11).pos.toNat ≤ 11 ∧
      (decAt .hdr 12).pos.toNat = 12) ∧
    (cycle 0x61 (decBody .pay 13) ∧ hexValue 0x61 = some 10 ∧ (decBody .pay 13).phase = .pay ∧
      13 ≤ (decBody .pay 13).pos.toNat ∧ (decBody .pay 16).pos.toNat ≤ 12 + (decBody .pay 16).len.toNat % 4096) ∧
    (cycle 0x46 (decBody .chk 17) ∧ (decBody .chk 17).phase = .chk ∧
      (decBody .chk 20).pos.toNat = 16 + (decBody .chk 20).len.toNat % 4096) := by decide

theorem witness_DecoderAtRestTakesNothing :
    (State.reset.dec.phase = .idle ∧ (Instr.hexcharLowerF, (0x66 : Byte), (15 : Nibble)) ∈ hexRows) ∧
    (encodeWord .frameEoi).1 = .field .eoi := by decide

theorem witness_MarkersInEveryPhase :
    (withDec (decAt .soi 0)).dec.phase = .soi ∧ (withDec (decBody .chk 20)).dec.phase = .chk ∧
    (let s := withDec { decBody .eoi 21 with plen := 2, rpbuf := [(0, 0x12), (1, 0x34)] };
      s.dec.phase = .eoi ∧ ([0x12, 0x34] : List Byte).length = s.dec.plen.toNat ∧ Stored s.dec.rpbuf [0x12, 0x34]) ∧
    (Instr.hexchar0, (0x30 : Byte), (0 : Nibble)) ∈ hexRows := by
  unfold Stored
  decide

/-- Offsets 1, 11 and 12. -/
theorem witness_CharactersInTheHeader :
    (Instr.hexcharUpperC, (0x43 : Byte), (12 : Nibble)) ∈ hexRows ∧ (withDec (decAt .hdr 1)).dec.phase = .hdr ∧
    1 ≤ (decAt .hdr 1).pos.toNat ∧ (decAt .hdr 11).pos.toNat ≤ 11 ∧ (decAt .hdr 12).pos.toNat = 12 := by decide

/-- Offsets 13 and 12 + N. -/
theorem witness_CharactersInThePayload :
    (Instr.hexchar9, (0x39 : Byte), (9 : Nibble)) ∈ hexRows ∧ (withDec (decBody .pay 13)).dec.phase = .pay ∧
    13 ≤ (decBody .pay 13).pos.toNat ∧ (decBody .pay 16).pos.toNat ≤ 12 + (decBody .pay 16).len.toNat % 4096 := by decide

/-- Offsets 13 + N and 16 + N. -/
theorem witness_CharactersInTheChecksum :
    (Instr.hexcharLowerD, (0x64 : Byte), (13 : Nibble)) ∈ hexRows ∧ (withDec (decBody .chk 17)).dec.phase = .chk ∧
    (decBody .chk 20).pos.toNat = 16 + (decBody .chk 20).len.toNat % 4096 := by decide

theorem witness_OneByteFields :
    (withDec (decAt .hdr 1)).dec.phase = .hdr ∧ hexValue 0x32 = some 2 ∧ hexValue 0x66 = some 15 ∧ hexValue 0x67 = none ∧
    (decAt .hdr 1).pos = 1 ∧ (decAt .hdr 3).pos = 3 ∧ (decAt .hdr 5).pos = 5 ∧ (decAt .hdr 7).pos = 7 := by decide

/-- Good words of each verdict; a bad first and a bad last digit. -/
theorem witness_LengthField :
    let s := withDec (decAt .hdr 9)
    s.dec.phase = .hdr ∧ s.dec.pos = 9 ∧ hexValues [0x30, 0x30, 0x30, 0x30] = some 0 ∧
    hexValues [0x43, 0x30, 0x30, 0x34] = some 0xC004 ∧ hexValues [0x31, 0x30, 0x30, 0x30] = some 0x1000 ∧
    hexValues [0x33, 0x46, 0x46, 0x46] = some 0x3FFF ∧
    ([0x47, 0x30, 0x30, 0x30] : List Byte)[0]? = some 0x47 ∧ hexValue 0x47 = none ∧
    (([0x30, 0x30, 0x30, 0x47] : List Byte)[3]? = some 0x47 ∧
      ∀ c ∈ ([0x30, 0x30, 0x30, 0x47] : List Byte).take 3, hexValue c ≠ none) := by decide

theorem witness_PayloadField :
    let s := withDec (decBody .pay 13)
    let n := s.dec.len.toNat % 4096
    (s.dec.phase = .pay ∧ s.dec.pos = 13 ∧ ([0x31, 0x32, 0x33, 0x34] : List Byte).length = n ∧ n % 2 = 0 ∧ 0 < n) ∧
    (∀ c ∈ ([0x31, 0x32, 0x33, 0x34] : List Byte), hexValue c ≠ none) ∧
    (([0x31, 0x32, 0x33, 0x0D] : List Byte)[3]? = some 0x0D ∧ hexValue 0x0D = none ∧
      ∀ c ∈ ([0x31, 0x32, 0x33, 0x0D] : List Byte).take 3, hexValue c ≠ none) := by decide

theorem witness_ChecksumField :
    let s := withDec (decBody .chk 17)
    (s.dec.phase = .chk ∧ s.dec.pos.toNat = 13 + s.dec.len.toNat % 4096) ∧
    hexValues [0x46, 0x43, 0x44, 0x33] = some 0xFCD3 ∧
    (([0x46, 0x43, 0x44, 0x2F] : List Byte)[3]? = some 0x2F ∧ hexValue 0x2F = none ∧
      ∀ c ∈ ([0x46, 0x43, 0x44, 0x2F] : List Byte).take 3, hexValue c ≠ none) := by decide

/-- The reset state with this transaction, reading or writing, and one coming channel cycle. -/
def inCycle (c : ChanCycle) (t : TxnRegs) : State := withFuture [c] { withTxn t with txnEnc := emitting 0 }

theorem witness_ChannelErrorsTaken :
    (let s := inCycle { ChanCycle.quiet with txErr := true, txReady := true } (busyIn .idle);
      s.txn.busy = true ∧ s.txn.state = .idle ∧ s.txnEnc.phase = .emit ∧ (nextCycle s.chan).1.txErr = true) ∧
    (let s := inCycle { ChanCycle.quiet with rxErr := true } (busyIn .awaitingHeader);
      Reading s.txn ∧ (nextCycle s.chan).1.rxErr = true) ∧
    (let s := inCycle ChanCycle.quiet { busyIn .awaitingHeader with timer := 100 };
      Reading s.txn ∧ (nextCycle s.chan).1.rxErr = false ∧ s.txn.timeout ≤ s.txn.timer ∧
      s.txn.cnt.toNat + (nextCycle s.chan).2.inn.length < readLimit s.txn) ∧
    (let s := inCycle (delivering [1, 2]) { busyIn .awaitingPayload with timer := 100, cnt := 18, n := 3 };
      Reading s.txn ∧ (nextCycle s.chan).1.rxErr = false ∧ s.txn.timeout ≤ s.txn.timer ∧
      s.txn.cnt.toNat + (nextCycle s.chan).2.inn.length < readLimit s.txn) := by
  unfold Reading
  decide

/-- A transaction at rest ends no exchange. -/
theorem raisesNo_at_rest (e : ErrorName) (s : State) (h : s.txn.busy = false) : TxnRaisesNo e s :=
  .inr fun _ _ hb => by simp [h] at hb

/-- Nor does one that is about to start its header read. -/
theorem raisesNo_sent (e : ErrorName) (d : DecUnit) : TxnRaisesNo e { withTxn (busyIn .sent) with dec := d } :=
  .inr fun _ h _ hb => by cases h; exact nomatch (show true = false from hb)

theorem witness_DecoderErrorsTaken :
    let at_ (c : Byte) (d : DecUnit) : State := { withPorts (offering c) with dec := d }
    (∀ e c d, TxnRaisesNo e (at_ c d)) ∧
    ((at_ 0x21 (decAt .soi 0)).txn.busy = false ∧ (at_ 0x21 (decAt .soi 0)).ports.deStart = false ∧
      (at_ 0x21 (decAt .soi 0)).ports.deInValid = true ∧ (at_ 0x21 (decAt .soi 0)).ports.deInData ≠ 0x7E) ∧
    ((at_ 0x0A (decAt .eoi 17)).dec.phase = .eoi ∧ (at_ 0x0A (decAt .eoi 17)).ports.deInData ≠ 0x0D) ∧
    ((at_ 0x47 (decBody .pay 13)).dec.phase = .pay ∧ hexValue (at_ 0x47 (decBody .pay 13)).ports.deInData = none) ∧
    (hexValue 0x34 = some 4 ∧ (decAt .hdr 12).pos = 12 ∧
      (let w : U16 := (0x0D00 : U16).extractLsb' 0 12 ++ BitVec.ofNat 4 4;
        w.toNat / 4096 ≠ nibbleCheck (w.toNat % 4096)) ∧
      (let w : U16 := (0x100 : U16).extractLsb' 0 12 ++ BitVec.ofNat 4 0;
        w.toNat / 4096 ≠ nibbleCheck (w.toNat % 4096)) ∧
      (let w : U16 := (0xF00 : U16).extractLsb' 0 12 ++ BitVec.ofNat 4 1;
        w.toNat / 4096 = nibbleCheck (w.toNat % 4096) ∧ w.toNat % 2 = 1)) ∧
    (let d := decBody .chk 20;
      let w : U16 := d.chk.extractLsb' 0 12 ++ BitVec.ofNat 4 3;
      d.phase = .chk ∧ d.pos.toNat = 16 + d.len.toNat % 4096 ∧ (w.toNat + d.acc.toNat) % 65536 ≠ 0) ∧
    (let s := { withPorts { InPorts.low with deInEnd := true } with dec := decAt .eoi 17 };
      s.ports.deInEnd = true ∧ (decOutputs false false 0 s.dec).inReady = true ∧ s.ports.deInValid = false) ∧
    (let s := { withPorts { offering 0x30 with deInEnd := true } with dec := decAt .hdr 1 };
      s.ports.deInEnd = true ∧ (decOutputs false false 0 s.dec).inReady = true ∧ s.ports.deInValid = true ∧
      (decOutputs false false 0 (decByte 0x30 s.dec)).inReady = true) :=
  ⟨fun e _ _ => raisesNo_at_rest e _ rfl, by decide⟩

/-- The leaf errors with a decoder at rest, and with one that takes a good byte in that cycle. -/
theorem witness_EncoderAndLeafErrorsTaken :
    (let s := withPorts { InPorts.low with enStart := true, enAddr := 16 };
      TxnRaisesNo .invalidAddress s ∧ s.ports.enStart = true ∧ s.ports.enAbort = false ∧ s.enc.phase ≠ .emit ∧
      15 < s.ports.enAddr.toNat) ∧
    (let s := withPorts { InPorts.low with enStart := true, enAddr := 15, enPlen := 2048 };
      TxnRaisesNo .payloadTooLarge s ∧ s.ports.enAddr.toNat ≤ 15 ∧ 2047 < s.ports.enPlen.toNat) ∧
    (∀ d ∈ [DecUnit.atReset, decAt .hdr 1],
      let s := { withPorts { offering 0x30 with hxDecIn := 0x47, lcWordIn := 0x1000, acRx := 1 } with dec := d }
      (∀ e ∈ [ErrorName.invalidHexDigit, .lengthChecksumMismatch, .checksumMismatch],
        TxnRaisesNo e s ∧ DecRaisesNo e s) ∧
      (leafOutputs s).hxDecErr = true ∧ (leafOutputs s).lcOk = false ∧
      (s.acc.toNat + s.ports.acRx.toNat) % 65536 ≠ 0) := by
  refine ⟨⟨raisesNo_at_rest _ _ rfl, by decide⟩, ⟨raisesNo_at_rest _ _ rfl, by decide⟩, fun d hd => ?_⟩
  refine ⟨fun e _ => ⟨raisesNo_at_rest _ _ rfl, ?_⟩, by revert d; decide, by revert d; decide, by revert d; decide⟩
  rcases List.mem_pair.mp hd with h | h
  · exact .inl (by subst h; unfold Accepting; decide)
  · exact .inr (.inr (.inr ⟨by subst h; decide, .inl rfl⟩))

theorem witness_ExchangeErrorsTaken :
    (let s := { withTxn (busyIn .idle) with txnEnc := { EncRegs.atReset with phase := .fail, err := some .invalidAddress } };
      s.txn.busy = true ∧ s.txn.state = .idle ∧ s.txnEnc.phase = .fail ∧ s.txnEnc.err = some .invalidAddress) ∧
    (let s := { withTxn { busyIn .awaitingHeader with cnt := 18 } with rxbuf := holding (frameA.set 9 0x47) };
      s.txn.busy = true ∧ s.txn.state = .awaitingHeader ∧ 18 ≤ s.txn.cnt.toNat ∧
      (∀ k < 4, Memory.read s.rxbuf (9 + k) = ([0x47, 0x30, 0x30, 0x30] : List Byte)[k]?) ∧
      hexValues [0x47, 0x30, 0x30, 0x30] = none) ∧
    (let s := { withTxn { busyIn .awaitingHeader with cnt := 18 } with rxbuf := holding (frameA.set 9 0x31) };
      (∀ k < 4, Memory.read s.rxbuf (9 + k) = ([0x31, 0x30, 0x30, 0x30] : List Byte)[k]?) ∧
      hexValues [0x31, 0x30, 0x30, 0x30] = some 4096 ∧ 4096 / 4096 ≠ nibbleCheck (4096 % 4096)) ∧
    (let s := { withTxn { busyIn .awaitingPayload with cnt := 18 } with rxbuf := holding (frameA.set 17 0x0A) };
      s.txn.state = .awaitingPayload ∧ (frameA.set 17 0x0A).length = 18 + s.txn.n.toNat ∧
      (frameA.set 17 0x0A).length ≤ s.txn.cnt.toNat ∧ Stored s.rxbuf (frameA.set 17 0x0A) ∧
      decodeFrame (frameA.set 17 0x0A) = .err .malformedFrame 17) := by
  unfold Stored
  decide

/-- Everything at rest; and a transaction and a decoder at work, neither of which fails in this cycle. -/
theorem witness_ErrorWordsWithoutCause :
    (∀ e, let s := withPorts { InPorts.low with hxDecIn := 0x30 };
      TxnRaisesNo e s ∧ DecRaisesNo e s ∧ EncRaisesNo e s ∧ LeafRaisesNo e s) ∧
    (∀ e, let s := { withTxn (busyIn .sent) with dec := decAt .hdr 1 };
      s.txn.busy = true ∧ Accepting s.dec ∧ TxnRaisesNo e s ∧ DecRaisesNo e s ∧ EncRaisesNo e s) := by
  refine ⟨fun e => ⟨raisesNo_at_rest e _ rfl, .inl (by unfold Accepting; decide), .inl rfl, ?_⟩,
    fun e => ⟨rfl, .inr (.inl rfl), raisesNo_sent e _, .inr (.inr (.inr ⟨by decide, .inl rfl⟩)), .inl rfl⟩⟩
  exact ⟨fun _ => by decide, fun _ => by decide, fun _ => by decide⟩

/-- A read failure, which ends the exchange. -/
theorem witness_TransactionErrorIsItsOwnCycle :
    let s := inCycle { ChanCycle.quiet with rxErr := true } (busyIn .awaitingHeader)
    s.txn.busy = true ∧ exec .errIoError s = .next (after .errIoError s) ∧ (after .errIoError s).txn.busy = false ∧
    exec (stateWord s.txn.state) s = .next (after .tStateAwaitingHeader s) ∧
    (after .tStateAwaitingHeader s).txn.busy = false ∧ (after .tStateAwaitingHeader s).txn.err = some .ioError :=
  ⟨rfl, rfl, by decide, rfl, by decide, by decide⟩

theorem witness_StateWordsAtRest :
    TState.sent ≠ State.reset.txn.state ∧
    (TState.idle = State.reset.txn.state ∧ State.reset.txn.busy = false ∧ State.reset.ports.tStart = false) ∧
    ((withTxn (busyIn .failed)).txn.busy = true ∧ (withTxn (busyIn .failed)).txn.state = .failed) := by decide

theorem witness_StartAndWriteCycles :
    (let s := { withPorts { InPorts.low with tStart := true } with txn := { TxnRegs.atReset with state := .failed } };
      TState.failed = s.txn.state ∧ s.txn.busy = false ∧ s.ports.tStart = true) ∧
    (let s := inCycle ChanCycle.quiet (busyIn .idle);
      s.txn.busy = true ∧ s.txn.state = .idle ∧ s.txnEnc.phase = .emit ∧ (nextCycle s.chan).1.txErr = false ∧
      (nextCycle s.chan).1.txReady = false) ∧
    (nextCycle (inCycle taking (busyIn .idle)).chan).1.txReady = true ∧
    ((withTxn (busyIn .sent)).txn.busy = true ∧ (withTxn (busyIn .sent)).txn.state = .sent) := by decide

/-- Nothing offered; a byte before the deadline; the last byte, and two of the last two, past the deadline. -/
theorem witness_ReadCycles :
    (let s := inCycle ticking { busyIn .awaitingHeader with timer := 99 };
      Reading s.txn ∧ (nextCycle s.chan).1.rxErr = false ∧ (nextCycle s.chan).2.inn = [] ∧
      s.txn.timer < s.txn.timeout) ∧
    (let s := inCycle (delivering [1, 2]) { busyIn .awaitingHeader with timer := 99 };
      Reading s.txn ∧ (nextCycle s.chan).2.inn = [1, 2] ∧ s.txn.timer < s.txn.timeout) ∧
    (let s := inCycle (delivering [1]) { busyIn .awaitingPayload with timer := 100, cnt := 4112, n := 4095 };
      Reading s.txn ∧ (nextCycle s.chan).2.inn = [1] ∧ s.txn.cnt.toNat + 1 = readLimit s.txn) ∧
    (let s := inCycle (delivering [1, 2]) { busyIn .awaitingHeader with timer := 100, cnt := 16 };
      Reading s.txn ∧ (nextCycle s.chan).2.inn = [1, 2] ∧
      readLimit s.txn ≤ s.txn.cnt.toNat + (nextCycle s.chan).2.inn.length) := by
  unfold Reading
  decide

theorem witness_HeaderAndReplyAccepted :
    (let s := { withTxn { busyIn .awaitingHeader with cnt := 18 } with rxbuf := holding frameB };
      s.txn.busy = true ∧ s.txn.state = .awaitingHeader ∧ 18 ≤ s.txn.cnt.toNat ∧
      (∀ k < 4, Memory.read s.rxbuf (9 + k) = ([0x45, 0x30, 0x30, 0x32] : List Byte)[k]?) ∧
      hexValues [0x45, 0x30, 0x30, 0x32] = some 0xE002 ∧ 0xE002 / 4096 = nibbleCheck (0xE002 % 4096)) ∧
    (let s := { withTxn { busyIn .awaitingPayload with cnt := 20, n := 2 } with rxbuf := holding frameB };
      s.txn.state = .awaitingPayload ∧ frameB.length = 18 + s.txn.n.toNat ∧ frameB.length ≤ s.txn.cnt.toNat ∧
      Stored s.rxbuf frameB ∧
      decodeFrame frameB =
        .ok { version := 0x20, address := 1, deviceType := 0x46, status := 0x42, payload := [0x01] } 20) := by
  unfold Stored
  decide

theorem witness_OnlyTheseTransitions :
    let s := withTxn (busyIn .sent)
    BusyMatchesState s ∧ TxnErrorMatches s.txn := by
  refine ⟨by unfold BusyMatchesState; decide, ?_⟩
  simp [TxnErrorMatches, withTxn, busyIn, TxnRegs.atReset]

theorem witness_ExecuteReturnsTheReply :
    exchange.txn.busy = false ∧ exchange.ports.tAddr.toNat ≤ 15 ∧ exchange.ports.tPlen.toNat ≤ 2047 ∧
    exchange.chan.future =
      ChanCycle.quiet :: (List.replicate (18 + 2 * exchange.ports.tPlen.toNat) taking ++ [delivering frameB]) ∧
    frameB.length = 18 + 2 ∧ 2 < 4096 ∧ hexValues ((frameB.drop 9).take 4) = some (4096 * nibbleCheck 2 + 2) := by decide

theorem witness_ExecuteWithoutReply :
    (withTxn (busyIn .sent)).txn.busy = true ∧
    (let s := withPorts { InPorts.low with tAddr := 16 };
      s.txn.busy = false ∧ 15 < s.ports.tAddr.toNat) ∧
    (let s := withPorts { InPorts.low with tAddr := 15, tPlen := 2048 };
      s.ports.tAddr.toNat ≤ 15 ∧ 2047 < s.ports.tPlen.toNat) ∧
    (let s := withFuture (ChanCycle.quiet :: (List.replicate 18 taking ++ [ChanCycle.quiet] ++ List.replicate 3 ticking ++
        [ChanCycle.quiet])) (withPorts { InPorts.low with tAddr := 15, tTimeout := 3 });
      s.txn.busy = false ∧ s.ports.tAddr.toNat ≤ 15 ∧ s.ports.tPlen.toNat ≤ 2047 ∧
      s.chan.future = ChanCycle.quiet :: (List.replicate (18 + 2 * s.ports.tPlen.toNat) taking ++ [ChanCycle.quiet] ++
        List.replicate s.ports.tTimeout.toNat ticking ++ [ChanCycle.quiet])) := by decide

/-- An `execute` that ends; and two that end at the channel, a read that fails and a read that times out. -/
theorem witness_ExecuteAgreesWithFunction :
    (exchange.txn.busy = false ∧ exec .execute exchange = .next (after .execute exchange) ∧
      (after .execute exchange).txn.busy = false) ∧
    (let s := withFuture (ChanCycle.quiet :: (List.replicate 18 taking ++ [ChanCycle.quiet,
        { ChanCycle.quiet with rxErr := true }])) (withPorts InPorts.low);
      (after .execute s).result = some (.err .ioError)) ∧
    (let s := withFuture (ChanCycle.quiet :: (List.replicate 18 taking ++ [delivering [1, 2]])) (withPorts InPorts.low);
      (after .execute s).result = some (.err .responseTimeout)) :=
  ⟨⟨rfl, rfl, by decide⟩, by decide, by decide⟩

/-- An `execute` that waits for its first byte to be taken. -/
theorem witness_ExecuteWaitsOnlyForTheChannel :
    State.reset.txn.busy = false ∧ exec .execute State.reset = .next (after .execute State.reset) ∧
    (after .execute State.reset).txn.busy = true :=
  ⟨rfl, rfl, by decide⟩

/-- A frame on the wire, and an address `Encode` refuses. -/
theorem witness_ExecuteWritesTheFrameInOrder :
    (exchange.txn.busy = false ∧ exec .execute exchange = .next (after .execute exchange) ∧
      encodeFrame exchange.ports.tAddr exchange.ports.tFn (executePayload exchange) = .ok frameA) ∧
    (let s := withPorts { InPorts.low with tAddr := 16 };
      s.txn.busy = false ∧ exec .execute s = .next (after .execute s) ∧
      encodeFrame s.ports.tAddr s.ports.tFn (executePayload s) = .err .invalidAddress) :=
  ⟨⟨rfl, rfl, by decide⟩, rfl, rfl, by decide⟩

/-- A second exchange after a failed one, with stray input and other registers. -/
theorem witness_ExecuteIsStateless :
    let s := exchange
    let s' := { exchange with
      txn := { TxnRegs.atReset with state := .failed, err := some .ioError, cnt := 7 }
      rxbuf := [(3, 9)]
      chan := { exchange.chan with inn := [0x6A], out := [1] } }
    s.txn.busy = false ∧ s'.txn.busy = false ∧ s.ports = s'.ports ∧ executePayload s = executePayload s' ∧
    s.chan.future = s'.chan.future ∧ exec .execute s = .next (after .execute s) ∧
    exec .execute s' = .next (after .execute s') :=
  ⟨rfl, rfl, rfl, rfl, rfl, rfl, rfl⟩

theorem witness_StepRunsTheDecodedWord :
    decodeWord .operation [0x1E] = .instr .execute ∧ wellFormed (.lengthWord 0xD 0x012) = true ∧ State.reset.script = [] ∧
    hexValue 0x47 = none ∧ decodeWord (.field .ver) [0x30] = .rejected .wrongLength ∧
    decodeWord .character [0x30, 0x31] = .rejected .wrongLength := by
  decide

/-- A well-formed word, and bytes that decode in each kind of place. -/
theorem witness_EveryWordDecodesBack :
    wellFormed (.frameInfo [0x61, 0x42]) = true ∧ decodeWord .operation [0xFE] = .instr .execute ∧
    decodeWord .errorCode [0x19] = .instr .errTruncatedFrame ∧ decodeWord .stateCode [0x0D] = .instr .tStateFailed ∧
    decodeWord .character [0x61] = .instr .hexcharLowerA := by decide

/-- A clock edge that writes `PBUF` while the transaction emits a byte that comes earlier than the one written. -/
theorem witness_ClockEdgeMovesTheTransaction :
    let p : InPorts := { InPorts.low with pbWe := true, pbIdx := 2046, pbData := 5 }
    let s := { inCycle taking (busyIn .idle) with script := [.clock p] }
    s.script = .clock p :: [] ∧ p.pbIdx.toNat < 2047 ∧ s.txn.busy = true ∧
    s.txnEnc.hexlen.toNat ≤ 2 * p.pbIdx.toNat := by decide

theorem witness_PbufWritePort :
    let p (i : BitVec 11) : InPorts := { InPorts.low with pbWe := true, pbIdx := i, pbData := 5 }
    ((clocked (p 2046) State.reset).script = .clock (p 2046) :: [] ∧ (p 2046).pbWe = true ∧ (p 2046).pbIdx.toNat < 2047 ∧
      State.reset.txn.busy = false ∧ State.reset.enc.phase ≠ .emit) ∧
    ((p 0).pbIdx.toNat < 2047 ∧ (withTxn (busyIn .sent)).txn.busy = true ∧ (withEnc (emitting 0)).enc.phase = .emit) ∧
    (p 2047).pbIdx.toNat = 2047 := by decide

theorem witness_ResetValues :
    { withTxn (busyIn .sent) with script := [.reset InPorts.low] }.script = .reset InPorts.low :: [] := rfl

/-- An encoder at a payload character, an accepted frame, a finished exchange with a payload byte, and a payload digit at the port. -/
theorem witness_StatusOutputs :
    (let r : EncRegs := { emitting 14 with hexlen := 2 };
      r.phase = .emit ∧ 13 ≤ r.idx.toNat ∧ r.idx.toNat ≤ 12 + r.hexlen.toNat) ∧
    (let s := { withTxn { TxnRegs.atReset with state := .complete, rplen := 1 } with
        txnDec := { DecUnit.atReset with rpbuf := [(0, 7)] } };
      (txnOutputs s).ok = true ∧ s.ports.rpIdx < s.txn.rplen ∧ Memory.read s.txnDec.rpbuf s.ports.rpIdx.toNat = some 7) ∧
    (txnOutputs State.reset).ok = false ∧ ((outputs (withDec (decAt .ok 18))).dec.ok = true) ∧
    (outputs State.reset).dec.ok = false ∧
    (let s := { withPorts (offering 0x31) with dec := decBody .pay 14 };
      s.ports.deInValid = true ∧ s.ports.deStart = false ∧ s.dec.phase = .pay ∧ hexValue s.ports.deInData = some 1 ∧
      (s.dec.pos.toNat - 13) % 2 = 1) := by
  decide

theorem witness_WordsStayInTheirBlocks :
    exec .encode State.reset = .next (after .encode State.reset) ∧ StandAlone .encode ∧
    (encodeWord .tStateIdle).1 = .stateCode := by
  refine ⟨rfl, ?_, rfl⟩
  unfold StandAlone
  decide

/-- A step between states that keep the invariants; for the four statements about every step. -/
theorem witness_BuffersStayCanonical :
    BuffersCanonical State.reset ∧ step State.reset = .next State.reset := by
  refine ⟨?_, rfl⟩
  unfold BuffersCanonical GoodBuffer
  decide

theorem witness_ErrorsAndPhasesStayMatched :
    let s := withTxn (busyIn .sent)
    ErrorsMatchPhases s ∧ BusyMatchesState s ∧ step s = .next (after .tStateSent s) := by
  refine ⟨?_, by unfold BusyMatchesState; decide, rfl⟩
  simp [ErrorsMatchPhases, EncErrorMatches, DecErrorMatches, TxnErrorMatches, withTxn, busyIn, State.reset,
    EncRegs.atReset, DecUnit.atReset, TxnRegs.atReset]

/-- A decoder at the last payload digit, which is then presented. -/
theorem witness_PositionsStayInRange :
    let s := { withDec { decBody .pay 16 with plen := 1 } with script := [.word .character [0x34]] }
    PositionsInRange s ∧ step s = .next (after .hexchar4 { s with script := [] }) := by
  refine ⟨?_, rfl⟩
  unfold PositionsInRange EncInRange
  exact ⟨by decide, by decide, show LengthAccepted _ ∧ _ ∧ _ ∧ _ by unfold LengthAccepted; decide, trivial⟩

/-- The eighteenth byte of a header region has been stored. -/
theorem witness_ReplyStaysStored :
    let s := { withTxn { busyIn .awaitingHeader with cnt := 18 } with rxbuf := holding frameB }
    ReplyStored s ∧ step s = .next (after .tStateAwaitingHeader s) := by
  refine ⟨⟨fun _ => ⟨by decide, by decide⟩, fun h => ?_⟩, rfl⟩
  exact absurd h (by decide)

end Sys2Proof.Tests
end

section
/-! PROOFS. What a reset leaves and shows (R21, R260, R261). -/

namespace Sys2Proof.Proofs

open Sys2Proof Sys2Proof.Machine Sys2Proof.Safety Sys2Proof.Laws

/-! ### The registers -/

/-- The reset values of R21 block by block: what is left to show of a state is which of its blocks were reset. -/
theorem registersAtReset_of_blocks {s : State} (hacc : s.acc = 0) (henc : s.enc = EncRegs.atReset)
    (hdec : s.dec = DecUnit.atReset) (htxn : s.txn = TxnRegs.atReset) (htxnEnc : s.txnEnc = EncRegs.atReset)
    (htxnDec : s.txnDec = DecUnit.atReset) (hpbuf : s.pbuf = []) (hrxbuf : s.rxbuf = []) : RegistersAtReset s := by
  refine ⟨hacc, fun r hr => ?encoders, fun d hd => ?decoders, ?transaction, fun k => ?buffers⟩
  case encoders =>
    have h : r = EncRegs.atReset := by rcases hr with rfl | rfl <;> assumption
    subst h; exact ⟨rfl, rfl, rfl, rfl, rfl, rfl, rfl⟩
  case decoders =>
    have h : d = DecUnit.atReset := by rcases hd with rfl | rfl <;> assumption
    subst h; exact ⟨rfl, rfl, rfl, rfl, rfl, rfl, rfl, rfl, rfl, rfl, rfl, rfl, read_nil⟩
  case transaction =>
    rw [htxn]; exact ⟨rfl, rfl, rfl, rfl, rfl, rfl, rfl, rfl, rfl, rfl, rfl, rfl, rfl, rfl, rfl⟩
  case buffers =>
    rw [hpbuf, hrxbuf]; exact ⟨read_nil k, read_nil k⟩

theorem registersAtReset_reset : RegistersAtReset State.reset :=
  registersAtReset_of_blocks rfl rfl rfl rfl rfl rfl rfl rfl

theorem registersAtReset_resetEdge (s : State) : RegistersAtReset (resetEdge s) :=
  registersAtReset_of_blocks rfl rfl rfl rfl rfl rfl rfl rfl

/-! ### The reset edge and the channel -/

/-- A reset stimulus is a reset edge at its port levels (R260). -/
theorem step_reset {s : State} {p : InPorts} {rest : List Stimulus} (h : s.script = .reset p :: rest) :
    step s = .next (resetEdge ((s.setScript rest).setPorts p)) := by
  simp only [step, fetch, h]

@[simp] theorem resetEdge_chan (s : State) : (resetEdge s).chan = (nextCycle s.chan).2 := rfl

/-- A cycle of the environment takes nothing out of `ch.in`: bytes only arrive (R44). -/
theorem inn_prefix_nextCycle (c : Channel) : c.inn <+: (nextCycle c).2.inn := by
  rcases nextCycle_cases c with ⟨_, quiet⟩ | ⟨e, rest, _, arrived⟩
  · rw [quiet]
  · rw [arrived]; exact List.prefix_append _ _

/-! ### The outputs after a reset: a block at rest without an error reports nothing -/

theorem encOutputs_of_idle (payload : Nat → Byte) {r : EncRegs} (hphase : r.phase = .idle) (herr : r.err = none) :
    (encOutputs payload r).done = false ∧ (encOutputs payload r).ok = false ∧ (encOutputs payload r).err = 0 := by
  simp [encOutputs, errPort, hphase, herr]

theorem decOutputs_of_idle (start valid : Bool) (data : Byte) {d : DecUnit} (hphase : d.phase = .idle)
    (herr : d.err = none) :
    (decOutputs start valid data d).done = false ∧ (decOutputs start valid data d).ok = false ∧
      (decOutputs start valid data d).err = 0 := by
  simp [decOutputs, errPort, hphase, herr]

theorem txnOutputs_of_idle {s : State} (hstate : s.txn.state = .idle) (herr : s.txn.err = none) :
    (txnOutputs s).done = false ∧ (txnOutputs s).ok = false ∧ (txnOutputs s).err = 0 := by
  simp [txnOutputs, errPort, hstate, herr]

/-- With the registers at their reset values no frame block reports an end or an error, whatever levels the input ports
hold (R146, R176, R205). -/
theorem outputs_of_registersAtReset {s : State} (h : RegistersAtReset s) :
    (outputs s).enc.done = false ∧ (outputs s).enc.ok = false ∧ (outputs s).dec.done = false ∧
      (outputs s).dec.ok = false ∧ (outputs s).txn.done = false ∧ (outputs s).txn.ok = false ∧
      (outputs s).enc.err = 0 ∧ (outputs s).dec.err = 0 ∧ (outputs s).txn.err = 0 := by
  obtain ⟨-, hencs, hdecs, ⟨htstate, -, -, -, -, -, -, -, -, hterr, -⟩, -⟩ := h
  obtain ⟨hephase, -, -, -, -, -, heerr⟩ := hencs s.enc (.inl rfl)
  obtain ⟨hdphase, -, -, -, -, -, -, -, -, -, -, hderr, -⟩ := hdecs s.dec (.inl rfl)
  obtain ⟨edone, eok, eerr⟩ := encOutputs_of_idle (payloadByte s) hephase heerr
  obtain ⟨ddone, dok, derr⟩ := decOutputs_of_idle s.ports.deStart s.ports.deInValid s.ports.deInData hdphase hderr
  obtain ⟨tdone, tok, terr⟩ := txnOutputs_of_idle htstate hterr
  exact ⟨edone, eok, ddone, dok, tdone, tok, eerr, derr, terr⟩

/-! ### The outputs while `rst` is high -/

/-- The gates of R260 are tied low. -/
theorem handshakesLow_outputsInReset (s : State) : HandshakesLow (outputsInReset s) :=
  ⟨rfl, rfl, rfl, rfl, rfl, rfl, rfl, rfl, rfl, rfl, rfl⟩

/-- With `de_ok`, `t_ok` and `de_in_ready` low, nothing is shown and nothing is written (R176, R177, R272). -/
theorem resultsZero_outputsInReset (s : State) : ResultsZero (outputsInReset s) :=
  ⟨rfl, rfl, rfl, rfl, rfl, rfl, rfl, rfl, rfl, rfl, rfl, rfl⟩

/-- Settles O53: the registers of the reset state and of a reset edge block by block, the outputs from the registers, and
the channel from the one cycle of the environment that the edge takes. -/
theorem resetValues : Obligations.ResetValues := by
  unfold Obligations.ResetValues
  refine ⟨registersAtReset_reset, fun s p rest hscript => ?_,
    fun s => ⟨handshakesLow_outputsInReset s, resultsZero_outputsInReset s⟩⟩
  have hregs := registersAtReset_resetEdge ((s.setScript rest).setPorts p)
  refine ⟨_, step_reset hscript, hregs, outputs_of_registersAtReset hregs, ?_, ?_⟩
  · simp
  · simpa using inn_prefix_nextCycle s.chan

end Sys2Proof.Proofs
end

section
/-! PROOFS. hex_codec: the three encoders and the three decoders, and how they invert each other (R100 to R109). -/

namespace Sys2Proof.Proofs

open Sys2Proof Sys2Proof.Machine Sys2Proof.Safety Sys2Proof.Laws

/-! ### The encoders on their operands (R100 to R102, R108) -/

theorem nibbleOperand_toNat (p : InPorts) : (nibbleOperand p).toNat = p.hxEncIn.toNat % 16 := by
  simp [nibbleOperand, BitVec.extractLsb'_toNat]

theorem byteOperand_toNat (p : InPorts) : (byteOperand p).toNat = p.hxEncIn.toNat % 256 := by
  simp [byteOperand, BitVec.extractLsb'_toNat]

theorem encodeNibble_operand (p : InPorts) :
    encodeNibble (nibbleOperand p) = hexCharOf (p.hxEncIn.toNat % 16) := by
  rw [encodeNibble_eq, nibbleOperand_toNat]

theorem encodeByte_operand (p : InPorts) :
    encodeByte (byteOperand p) = [hexCharOf (p.hxEncIn.toNat / 16 % 16), hexCharOf (p.hxEncIn.toNat % 16)] := by
  have high : p.hxEncIn.toNat % 256 / 16 = p.hxEncIn.toNat / 16 % 16 := by omega
  have low : p.hxEncIn.toNat % 256 % 16 = p.hxEncIn.toNat % 16 := by omega
  rw [encodeByte_eq, byteOperand_toNat, high, low]

/-- Settles O1: an encoder sets the result to the characters of its operand, and those are the digits of the number on
`hx_enc_in`. -/
theorem hexEncodersWriteHighNibbleFirst : Obligations.HexEncodersWriteHighNibbleFirst := by
  unfold Obligations.HexEncodersWriteHighNibbleFirst
  intro s
  dsimp only
  refine ⟨?nibble, ?byte, ?u16⟩
  case nibble => rw [← encodeNibble_operand]; rfl
  case byte => rw [← encodeByte_operand]; rfl
  case u16 => rw [← encodeU16_eq]; rfl

/-! ### The decoders on their operands (R103 to R105, R108) -/

/-- Where the number that the characters spell is the decoded value, the answer is read off that number. -/
theorem resultOf_hexValues {w : Nat} {cs : List Byte} {decoded : Option (BitVec w)} (f : BitVec w → Value)
    (h : hexValues cs = decoded.map BitVec.toNat) :
    resultOf .invalidHexDigit f decoded =
      resultOf .invalidHexDigit (fun v => f (BitVec.ofNat w v)) (hexValues cs) := by
  rw [h]
  cases decoded <;> simp [resultOf]

theorem exec_decodeNibble (s : State) :
    exec .decodeNibble s =
      .next (s.setResult (resultOf .invalidHexDigit (fun v => .nibble (BitVec.ofNat 4 v))
        (hexValues [charOperand s.ports 0]))) := by
  rw [← resultOf_hexValues .nibble (hexValues_one _)]; rfl

theorem exec_decodeByte (s : State) :
    exec .decodeByte s =
      .next (s.setResult (resultOf .invalidHexDigit (fun v => .byte (BitVec.ofNat 8 v))
        (hexValues [charOperand s.ports 1, charOperand s.ports 0]))) := by
  rw [← resultOf_hexValues .byte (hexValues_two _ _)]; rfl

theorem exec_decodeU16 (s : State) :
    exec .decodeU16 s =
      .next (s.setResult (resultOf .invalidHexDigit (fun v => .u16 (BitVec.ofNat 16 v))
        (hexValues [charOperand s.ports 3, charOperand s.ports 2, charOperand s.ports 1, charOperand s.ports 0]))) := by
  rw [← resultOf_hexValues .u16 (hexValues_four _ _ _ _)]; rfl

/-- Settles O2: a decoder answers what the characters on `hx_dec_in` spell, and changes the result alone. -/
theorem hexDecodersAreAllOrNothing : Obligations.HexDecodersAreAllOrNothing := by
  unfold Obligations.HexDecodersAreAllOrNothing
  intro s
  simp only [← charOperand_eq]
  refine ⟨(exec_decodeNibble s).trans ?nibble, (exec_decodeByte s).trans ?byte, (exec_decodeU16 s).trans ?u16⟩
  all_goals cases hexValues _ <;> rfl

/-! ### Decoding inverts encoding (R109 (a)) -/

@[simp] theorem decodeNibble_encodeNibble (n : Nibble) : decodeNibble (encodeNibble n) = some n := by
  revert n; decide

theorem joinNibbles_high_low (b : Byte) : joinNibbles (highNibble b) (lowNibble b) = b := by
  apply BitVec.eq_of_toNat_eq
  rw [joinNibbles_eq, highNibble_toNat, lowNibble_toNat, BitVec.toNat_ofNat]
  omega

theorem decodeByte_encodeByte (b : Byte) :
    decodeByte (encodeNibble (highNibble b)) (encodeNibble (lowNibble b)) = some b := by
  simp [decodeByte, joinNibbles_high_low]

theorem decodeU16_encodeU16 (v : U16) :
    decodeU16 (encodeNibble (v.extractLsb' 12 4)) (encodeNibble (v.extractLsb' 8 4))
      (encodeNibble (v.extractLsb' 4 4)) (encodeNibble (v.extractLsb' 0 4)) = some v := by
  apply Option.map_injective (fun _ _ => BitVec.eq_of_toNat_eq)
  rw [decodeU16_toNat (decodeNibble_encodeNibble _) (decodeNibble_encodeNibble _) (decodeNibble_encodeNibble _)
    (decodeNibble_encodeNibble _)]
  simp only [BitVec.extractLsb'_toNat, Nat.shiftRight_eq_div_pow, Option.map_some, Option.some.injEq]
  have := v.isLt
  omega

/-! ### Encoding is injective and uppercase (R109 (b)) -/

theorem encodeByte_injective : Function.Injective encodeByte := by
  intro b b' h
  simp only [encodeByte, List.cons.injEq, and_true] at h
  obtain ⟨high, low⟩ := h
  rw [← Option.some_inj, ← decodeByte_encodeByte b, ← decodeByte_encodeByte b', high, low]

theorem encodeU16_injective : Function.Injective encodeU16 := by
  intro v v' h
  simp only [encodeU16, List.cons.injEq, and_true] at h
  obtain ⟨h0, h1, h2, h3⟩ := h
  rw [← Option.some_inj, ← decodeU16_encodeU16 v, ← decodeU16_encodeU16 v', h0, h1, h2, h3]

theorem encodeNibble_uppercase (n : Nibble) :
    0x30 ≤ (encodeNibble n).toNat ∧ (encodeNibble n).toNat ≤ 0x39 ∨
      0x41 ≤ (encodeNibble n).toNat ∧ (encodeNibble n).toNat ≤ 0x46 := by
  revert n; decide

theorem exists_encodeNibble_of_mem_encodeByte {b c : Byte} (h : c ∈ encodeByte b) : ∃ n, c = encodeNibble n := by
  simp only [encodeByte, List.mem_cons, List.not_mem_nil, or_false] at h
  rcases h with h | h <;> exact ⟨_, h⟩

theorem exists_encodeNibble_of_mem_encodeU16 {v : U16} {c : Byte} (h : c ∈ encodeU16 v) :
    ∃ n, c = encodeNibble n := by
  simp only [encodeU16, List.mem_cons, List.not_mem_nil, or_false] at h
  rcases h with h | h | h | h <;> exact ⟨_, h⟩

/-! ### Re-encoding is upper-casing (R109 (c)) -/

/-- Upper-casing moves the third range of R71 to the second and leaves the digits and the capitals. -/
theorem encodeNibble_of_decodeNibble {c : Byte} {n : Nibble} (h : decodeNibble c = some n) :
    encodeNibble n = upperCase c := by
  unfold decodeNibble at h
  unfold encodeNibble upperCase
  split_ifs at h with digit capital small <;> obtain rfl := Option.some.inj h
  · rw [if_pos (by bv_omega), if_neg (by bv_omega)]; bv_omega
  · rw [if_neg (by bv_omega), if_neg (by bv_omega)]; bv_omega
  · rw [if_neg (by bv_omega), if_pos (by bv_omega)]; bv_omega

theorem highNibble_joinNibbles (a b : Nibble) : highNibble (joinNibbles a b) = a := by
  have := a.isLt
  have := b.isLt
  apply BitVec.eq_of_toNat_eq
  rw [highNibble_toNat, joinNibbles_eq, BitVec.toNat_ofNat]
  omega

theorem lowNibble_joinNibbles (a b : Nibble) : lowNibble (joinNibbles a b) = b := by
  have := b.isLt
  apply BitVec.eq_of_toNat_eq
  rw [lowNibble_toNat, joinNibbles_eq, BitVec.toNat_ofNat]
  omega

theorem decodeByte_eq_some {c0 c1 b : Byte} (h : decodeByte c0 c1 = some b) :
    decodeNibble c0 = some (highNibble b) ∧ decodeNibble c1 = some (lowNibble b) := by
  unfold decodeByte at h
  split at h
  next a l ha hl =>
    obtain rfl := Option.some.inj h
    rw [highNibble_joinNibbles, lowNibble_joinNibbles]
    exact ⟨ha, hl⟩
  next => contradiction

theorem encodeByte_of_decodeByte {c0 c1 b : Byte} (h : decodeByte c0 c1 = some b) :
    encodeByte b = [upperCase c0, upperCase c1] := by
  obtain ⟨high, low⟩ := decodeByte_eq_some h
  rw [encodeByte, encodeNibble_of_decodeNibble high, encodeNibble_of_decodeNibble low]

/-! ### How many inputs decode (R109 (d)) -/

/-- The characters that are hex digits (R71). -/
def hexDigits : Finset Byte := Finset.univ.filter fun c => isHex c

@[simp] theorem mem_hexDigits {c : Byte} : c ∈ hexDigits ↔ isHex c = true := by simp [hexDigits]

theorem card_hexDigits : hexDigits.card = 22 := by decide

theorem isSome_decodeByte (c0 c1 : Byte) : (decodeByte c0 c1).isSome = (isHex c0 && isHex c1) := by
  unfold decodeByte isHex
  cases decodeNibble c0 <;> cases decodeNibble c1 <;> rfl

theorem isSome_decodeU16 (c0 c1 c2 c3 : Byte) :
    (decodeU16 c0 c1 c2 c3).isSome = (isHex c0 && isHex c1 && isHex c2 && isHex c3) := by
  unfold decodeU16 isHex
  cases decodeNibble c0 <;> cases decodeNibble c1 <;> cases decodeNibble c2 <;> cases decodeNibble c3 <;> rfl

theorem filter_decodeByte :
    (Finset.univ.filter fun p : Byte × Byte => (decodeByte p.1 p.2).isSome) = hexDigits ×ˢ hexDigits := by
  ext p; simp [isSome_decodeByte]

theorem filter_decodeU16 :
    (Finset.univ.filter fun q : Byte × Byte × Byte × Byte => (decodeU16 q.1 q.2.1 q.2.2.1 q.2.2.2).isSome) =
      hexDigits ×ˢ hexDigits ×ˢ hexDigits ×ˢ hexDigits := by
  ext q; simp [isSome_decodeU16, and_assoc]

/-- Settles O3: (a) from the left inverses, (b) from them and the range of one character, (c) digit by digit, (d) as
products of the set of hex digits. -/
theorem hexCodecInversionLaws : Obligations.HexCodecInversionLaws := by
  unfold Obligations.HexCodecInversionLaws
  refine ⟨decodeNibble_encodeNibble, fun b => ⟨_, _, rfl, decodeByte_encodeByte b⟩,
    fun v => ⟨_, _, _, _, rfl, decodeU16_encodeU16 v⟩, fun _ _ h => encodeByte_injective h,
    fun _ _ h => encodeU16_injective h, fun b c hc => ?byteUppercase, fun v c hc => ?u16Uppercase,
    fun _ _ _ h => encodeByte_of_decodeByte h, ?pairs, ?quadruples⟩
  case byteUppercase =>
    obtain ⟨n, rfl⟩ := exists_encodeNibble_of_mem_encodeByte hc
    exact encodeNibble_uppercase n
  case u16Uppercase =>
    obtain ⟨n, rfl⟩ := exists_encodeNibble_of_mem_encodeU16 hc
    exact encodeNibble_uppercase n
  case pairs => rw [filter_decodeByte, Finset.card_product, card_hexDigits]
  case quadruples => simp only [filter_decodeU16, Finset.card_product, card_hexDigits]; rfl

end Sys2Proof.Proofs
end

section
/-! PROOFS. The ports of the leaf blocks, and the accumulator over a clock edge (R108, R131). -/

namespace Sys2Proof.Proofs

open Sys2Proof Sys2Proof.Machine Sys2Proof.Safety Sys2Proof.Laws

/-! ### The ports of hex_codec (R108) -/

/-- One more character at the bottom of the 32-bit level. -/
theorem shiftInChar_toNat (w : BitVec 32) (c : Byte) :
    (w <<< 8 ||| c.setWidth 32).toNat = w.toNat % 2 ^ 24 * 2 ^ 8 + c.toNat := by
  have hc := c.isLt
  have kept : w.toNat * 2 ^ 8 % 2 ^ 32 = w.toNat % 2 ^ 24 * 2 ^ 8 := by omega
  rw [BitVec.toNat_or, BitVec.toNat_shiftLeft, BitVec.toNat_setWidth, Nat.mod_eq_of_lt (a := c.toNat) (by omega),
    Nat.shiftLeft_eq, kept, ← shiftLeft_or _ _ 8 hc, Nat.shiftLeft_eq]

theorem packChars_four (a b c d : Byte) :
    (packChars [a, b, c, d]).toNat = a.toNat * 2 ^ 24 + b.toNat * 2 ^ 16 + c.toNat * 2 ^ 8 + d.toNat := by
  have := a.isLt
  have := b.isLt
  have := c.isLt
  simp only [packChars, List.foldl_cons, List.foldl_nil, shiftInChar_toNat]
  omega

/-- The characters that `hx_dec_sel` selects: one, two or four (R108). -/
def selectedChars (p : InPorts) : List Byte :=
  if p.hxDecSel = 0 then [charOperand p 0]
  else if p.hxDecSel = 1 then [charOperand p 1, charOperand p 0]
  else [charOperand p 3, charOperand p 2, charOperand p 1, charOperand p 0]

/-- A decoded value put on the 16-bit port is the same number. -/
theorem map_setWidth_toNat {w : Nat} (hw : w ≤ 16) (decoded : Option (BitVec w)) :
    (decoded.map (·.setWidth 16)).map BitVec.toNat = decoded.map BitVec.toNat := by
  cases decoded <;> simp [BitVec.toNat_setWidth_of_le hw]

/-- The selected decode gives the number that the selected characters spell. -/
theorem hexDecode_toNat (p : InPorts) : (hexDecode p).map BitVec.toNat = hexValues (selectedChars p) := by
  unfold hexDecode selectedChars
  split
  next sel => rw [if_pos (by bv_omega), hexValues_one, map_setWidth_toNat (by decide)]
  next sel => rw [if_neg (by bv_omega), if_pos (by bv_omega), hexValues_two, map_setWidth_toNat (by decide)]
  next sel0 sel1 =>
    have ne0 : p.hxDecSel ≠ 0 := fun h => sel0 (by rw [h]; rfl)
    have ne1 : p.hxDecSel ≠ 1 := fun h => sel1 (by rw [h]; rfl)
    rw [if_neg ne0, if_neg ne1, hexValues_four]

theorem hxEncOut_toNat (s : State) :
    (leafOutputs s).hxEncOut.toNat =
      (hexCharOf (s.ports.hxEncIn.toNat / 4096)).toNat * 2 ^ 24 +
      (hexCharOf (s.ports.hxEncIn.toNat / 256 % 16)).toNat * 2 ^ 16 +
      (hexCharOf (s.ports.hxEncIn.toNat / 16 % 16)).toNat * 2 ^ 8 +
      (hexCharOf (s.ports.hxEncIn.toNat % 16)).toNat := by
  rw [← packChars_four, ← encodeU16_eq]; rfl

theorem hxDecErr_eq (s : State) : (leafOutputs s).hxDecErr = (hexValues (selectedChars s.ports)).isNone := by
  rw [← hexDecode_toNat, Option.isNone_map]; rfl

theorem hxDecOut_toNat (s : State) :
    (leafOutputs s).hxDecOut.toNat = (hexValues (selectedChars s.ports)).getD 0 := by
  rw [← hexDecode_toNat]
  exact (Option.getD_map BitVec.toNat 0 _).symm

/-! ### The ports of nibble_checksum_validator and of the accumulator (R131) -/

theorem lcOk_eq (s : State) :
    (leafOutputs s).lcOk =
      decide (s.ports.lcWordIn.toNat / 4096 = nibbleCheck (s.ports.lcWordIn.toNat % 4096)) := by
  simp only [leafOutputs, lengthFieldCheck_eq]
  split_ifs with passes <;> simp [passes]

theorem lcLenOut_toNat (s : State) :
    (leafOutputs s).lcLenOut.toNat =
      if s.ports.lcWordIn.toNat / 4096 = nibbleCheck (s.ports.lcWordIn.toNat % 4096)
      then s.ports.lcWordIn.toNat % 4096 else 0 := by
  simp only [leafOutputs, lengthFieldCheck_eq]
  split_ifs <;> simp

theorem lengthFieldBuild_toNat (l : Len12) :
    (lengthFieldBuild l).toNat = 4096 * nibbleCheck l.toNat + l.toNat := by
  rw [lengthFieldBuild, lengthWordOf_toNat, lengthChecksum_toNat]

theorem accResult_toNat (acc : U16) : (accResult acc).toNat = (65536 - acc.toNat) % 65536 := BitVec.toNat_neg acc

/-! ### The accumulator over a clock edge (R131) -/

/-- Clear wins over add (R131). -/
theorem accCycle_acc_toNat (s : State) :
    (accCycle s).acc.toNat = if s.ports.acClear then 0
      else if s.ports.acAdd then (s.acc.toNat + s.ports.acByte.toNat) % 65536 else s.acc.toNat := by
  unfold accCycle
  split_ifs with clear add
  · rfl
  · simp [accAddStep, accAdd]
  · rfl

/-- A `PBUF` port that writes no missing byte lets the edge go on, and moves neither `ACC` nor a port. -/
theorem pbufCycle_keeps_acc {s : State} (h : s.ports.pbWe = false ∨ s.ports.pbIdx.toNat < 2047) :
    ∃ t, pbufCycle s = .next t ∧ t.acc = s.acc ∧ t.ports = s.ports := by
  rcases pbufCycle_cases s with ⟨-, e⟩ | ⟨write, missing, -⟩ | ⟨-, -, -, e⟩ | ⟨-, -, -, e⟩
  · exact ⟨_, e, rfl, rfl⟩
  · rcases h with quiet | inRange
    · simp [quiet] at write
    · omega
  · exact ⟨_, e, rfl, rfl⟩
  · exact ⟨_, e, rfl, rfl⟩

theorem decCycle_acc (s : State) : (decCycle s).acc = s.acc := by
  obtain ⟨d, e⟩ := decCycle_frame s
  rw [e]

theorem encCycle_acc (s : State) : (encCycle s).acc = s.acc := by
  obtain ⟨r, taken, e⟩ := encCycle_frame s
  rw [e]

theorem txnCycle_acc (s : State) : (txnCycle s).acc = s.acc := by
  obtain ⟨acc, -⟩ := txnCycle_keeps s
  exact acc

/-- Over a clock edge `ACC` does what the accumulator's own cycle does: no other block writes it. -/
theorem clockEdge_acc {s : State} (h : s.ports.pbWe = false ∨ s.ports.pbIdx.toNat < 2047) :
    ∃ t, clockEdge s = .next t ∧ t.acc.toNat = if s.ports.acClear then 0
      else if s.ports.acAdd then (s.acc.toNat + s.ports.acByte.toNat) % 65536 else s.acc.toNat := by
  obtain ⟨u, e, acc, ports⟩ := pbufCycle_keeps_acc h
  refine ⟨txnCycle (decCycle (encCycle (accCycle u))), by simp only [clockEdge, e], ?_⟩
  rw [txnCycle_acc, decCycle_acc, encCycle_acc, accCycle_acc_toNat, acc, ports]

/-- A clock stimulus is a clock edge at its port levels. -/
theorem step_clockEdge {s : State} {p : InPorts} {rest : List Stimulus} (h : s.script = .clock p :: rest) :
    step s = clockEdge ((s.setScript rest).setPorts p) := by
  simp only [step, fetch, h]

/-- Settles O8: each port from the arithmetic of its block, `ACC` from the one block that writes it. -/
theorem leafBlockPorts : Obligations.LeafBlockPorts := by
  unfold Obligations.LeafBlockPorts
  refine ⟨fun s => ?hexCodec, fun s => ?validator, fun s p rest hscript hpbuf => ?clock,
    fun s p rest hscript => ⟨_, step_reset hscript, rfl⟩⟩
  case hexCodec =>
    simp only [← charOperand_eq]
    exact ⟨hxEncOut_toNat s, hxDecErr_eq s, hxDecOut_toNat s⟩
  case validator =>
    exact ⟨lengthChecksum_toNat _, lengthFieldBuild_toNat _, lcOk_eq s, lcLenOut_toNat s, rfl, accResult_toNat _⟩
  case clock =>
    rw [step_clockEdge hscript]
    exact clockEdge_acc (s := (s.setScript rest).setPorts p) hpbuf

end Sys2Proof.Proofs
end

section
/-! PROOFS. nibble_checksum_validator: the three length operations, and which length words pass (R120 to R123). -/

namespace Sys2Proof.Proofs

open Sys2Proof Sys2Proof.Machine Sys2Proof.Safety Sys2Proof.Laws

/-! ### The length operations on their operands (R120 to R122) -/

theorem lengthChecksum_eq (l : Len12) : lengthChecksum l = BitVec.ofNat 4 (nibbleCheck l.toNat) := by
  rw [← lengthChecksum_toNat, BitVec.ofNat_toNat, BitVec.setWidth_eq]

theorem lengthFieldBuild_eq (l : Len12) :
    lengthFieldBuild l = BitVec.ofNat 16 (4096 * nibbleCheck l.toNat + l.toNat) := by
  rw [← lengthFieldBuild_toNat, BitVec.ofNat_toNat, BitVec.setWidth_eq]

theorem resultOf_lengthFieldCheck (w : U16) :
    resultOf .lengthChecksumMismatch .len12 (lengthFieldCheck w) =
      if w.toNat / 4096 = nibbleCheck (w.toNat % 4096) then .ok (.len12 (BitVec.ofNat 12 w.toNat))
      else .err .lengthChecksumMismatch := by
  rw [lengthFieldCheck_eq, apply_ite (resultOf _ _)]
  rfl

/-- Settles O4: each operation sets the result to its function of the operand, and that function is the closed form of
R120. -/
theorem lengthOperations : Obligations.LengthOperations := by
  unfold Obligations.LengthOperations
  intro s
  dsimp only
  refine ⟨?checksum, ?build, ?check⟩
  case checksum => rw [← lengthChecksum_eq]; rfl
  case build => rw [← lengthFieldBuild_eq]; rfl
  case check => rw [← resultOf_lengthFieldCheck]; rfl

/-! ### One passing word per length (R123 (a), (b)) -/

/-- The built word is the only one that passes with its length. -/
theorem lengthFieldCheck_eq_some_iff {w : U16} {l : Len12} :
    lengthFieldCheck w = some l ↔ w = lengthFieldBuild l := by
  rw [lengthFieldCheck_eq, ← BitVec.toNat_inj, lengthFieldBuild_toNat]
  constructor
  · intro h
    split_ifs at h with passes
    obtain rfl := Option.some.inj h
    rw [BitVec.toNat_ofNat, ← passes]
    omega
  · intro h
    have low : w.toNat % 4096 = l.toNat := by omega
    rw [if_pos (by rw [low]; omega), Option.some_inj, ← BitVec.toNat_inj, BitVec.toNat_ofNat, low]

theorem lengthFieldCheck_build (l : Len12) : lengthFieldCheck (lengthFieldBuild l) = some l :=
  lengthFieldCheck_eq_some_iff.mpr rfl

theorem lengthFieldBuild_injective : Function.Injective lengthFieldBuild := by
  intro l l' h
  rw [← Option.some_inj, ← lengthFieldCheck_build l, h, lengthFieldCheck_build]

theorem filter_lengthFieldCheck :
    (Finset.univ.filter fun w : U16 => (lengthFieldCheck w).isSome) = Finset.univ.image lengthFieldBuild := by
  ext w
  simp only [Finset.mem_filter_univ, Finset.mem_image, Finset.mem_univ, true_and, Option.isSome_iff_exists,
    lengthFieldCheck_eq_some_iff, eq_comm (a := w)]

theorem card_lengthFieldCheck : (Finset.univ.filter fun w : U16 => (lengthFieldCheck w).isSome).card = 4096 := by
  calc (Finset.univ.filter fun w : U16 => (lengthFieldCheck w).isSome).card
      = Fintype.card Len12 := by
        rw [filter_lengthFieldCheck, Finset.card_image_of_injective _ lengthFieldBuild_injective, Finset.card_univ]
    _ = 2 ^ 12 := by rw [← FinEnum.card_eq_fintypeCard, FinEnum.card_bitVec]

/-! ### The nibble sum of a passing word (R123 (c), (d)) -/

/-- The expected top nibble is the one that brings the nibble sum to 0 modulo 16. -/
theorem isSome_lengthFieldCheck (w : U16) : (lengthFieldCheck w).isSome = true ↔ nibbleSum w % 16 = 0 := by
  have top : w.toNat / 4096 < 16 := by omega
  have high : w.toNat % 4096 / 256 = w.toNat / 256 % 16 := by omega
  have middle : w.toNat % 4096 / 16 % 16 = w.toNat / 16 % 16 := by omega
  have low : w.toNat % 4096 % 16 = w.toNat % 16 := by omega
  rw [lengthFieldCheck_eq, Option.isSome_ite, nibbleCheck, nibbleSum, high, middle, low]
  omega

theorem nibbleSum_eq_sum (w : U16) : nibbleSum w = ∑ j ∈ Finset.range 4, (w.extractLsb' (4 * j) 4).toNat := by
  simp only [nibbleSum, Finset.sum_range_succ, Finset.sum_range_zero, BitVec.extractLsb'_toNat,
    Nat.shiftRight_eq_div_pow]
  omega

theorem eq_of_nibbles_eq {w w' : U16} (h : ∀ j < 4, w.extractLsb' (4 * j) 4 = w'.extractLsb' (4 * j) 4) : w = w' := by
  have nibble (j : Nat) (hj : j < 4) : w.toNat / 2 ^ (4 * j) % 16 = w'.toNat / 2 ^ (4 * j) % 16 := by
    simpa [BitVec.extractLsb'_toNat, Nat.shiftRight_eq_div_pow] using congrArg BitVec.toNat (h j hj)
  have h0 := nibble 0 (by decide)
  have h1 := nibble 1 (by decide)
  have h2 := nibble 2 (by decide)
  have h3 := nibble 3 (by decide)
  apply BitVec.eq_of_toNat_eq
  omega

/-- A nibble is known from the other three and the nibble sum modulo 16. -/
theorem eq_of_nibbleSum_eq {w w' : U16} {i : Nat} (hi : i < 4)
    (others : ∀ j < 4, j ≠ i → w.extractLsb' (4 * j) 4 = w'.extractLsb' (4 * j) 4)
    (sums : nibbleSum w % 16 = nibbleSum w' % 16) : w = w' := by
  have rest : ∑ j ∈ (Finset.range 4).erase i, (w.extractLsb' (4 * j) 4).toNat =
      ∑ j ∈ (Finset.range 4).erase i, (w'.extractLsb' (4 * j) 4).toNat := by
    refine Finset.sum_congr rfl fun j hj => ?_
    obtain ⟨ne, mem⟩ := Finset.mem_erase.mp hj
    rw [others j (Finset.mem_range.mp mem) ne]
  have changed : w.extractLsb' (4 * i) 4 = w'.extractLsb' (4 * i) 4 := by
    rw [nibbleSum_eq_sum, nibbleSum_eq_sum, ← Finset.add_sum_erase _ _ (Finset.mem_range.mpr hi),
      ← Finset.add_sum_erase _ _ (Finset.mem_range.mpr hi), rest] at sums
    have := (w.extractLsb' (4 * i) 4).isLt
    have := (w'.extractLsb' (4 * i) 4).isLt
    apply BitVec.eq_of_toNat_eq
    omega
  refine eq_of_nibbles_eq fun j hj => ?_
  rcases eq_or_ne j i with rfl | ne
  · exact changed
  · exact others j hj ne

/-- Settles O6: the passing words are the built words, (a) and (b), and those of nibble sum 0 modulo 16, (c) and
(d). -/
theorem lengthWordsThatPass : Obligations.LengthWordsThatPass := by
  unfold Obligations.LengthWordsThatPass
  refine ⟨lengthFieldCheck_build, card_lengthFieldCheck,
    fun l => ⟨lengthFieldBuild l, lengthFieldCheck_build l, fun _ h => lengthFieldCheck_eq_some_iff.mp h⟩,
    isSome_lengthFieldCheck, fun w w' i hi others passes changed => ?oneNibble, fun w w' sums => ?sameSum⟩
  case oneNibble =>
    rw [← Option.not_isSome_iff_eq_none]
    intro passes'
    rw [isSome_lengthFieldCheck] at passes passes'
    exact changed (eq_of_nibbleSum_eq hi others (passes.trans passes'.symm)).symm
  case sameSum => rw [isSome_lengthFieldCheck, isSome_lengthFieldCheck, sums]

end Sys2Proof.Proofs
end

section
/-! PROOFS. additive_checksum_engine: the two list operations, and what the checksum depends on (R127, R128). -/

namespace Sys2Proof.Proofs

open Sys2Proof Sys2Proof.Machine Sys2Proof.Safety Sys2Proof.Laws

/-! ### The checksum as a function of the sum (R127, R128) -/

/-- The defining property of R127. -/
theorem sumBytes_add_frameChecksum (bytes : List Byte) :
    (sumBytes bytes + (frameChecksum bytes).toNat) % 65536 = 0 := by
  rw [frameChecksum_toNat, checksumOf]
  omega

/-- The defining property determines the checksum. -/
theorem frameChecksum_eq_iff (bytes : List Byte) (c : U16) :
    frameChecksum bytes = c ↔ (sumBytes bytes + c.toNat) % 65536 = 0 := by
  rw [← BitVec.toNat_inj, frameChecksum_toNat, checksumOf]
  omega

theorem frameChecksum_eq_frameChecksum_iff (bytes bytes' : List Byte) :
    frameChecksum bytes = frameChecksum bytes' ↔ sumBytes bytes % 65536 = sumBytes bytes' % 65536 := by
  have h := sumBytes_add_frameChecksum bytes'
  rw [frameChecksum_eq_iff]
  omega

theorem sumBytes_perm {bytes bytes' : List Byte} (h : bytes.Perm bytes') : sumBytes bytes = sumBytes bytes' :=
  (h.map _).sum_eq

theorem sumBytes_append_cons (as bs : List Byte) (x : Byte) :
    sumBytes (as ++ x :: bs) = sumBytes as + (x.toNat + sumBytes bs) := by
  simp [sumBytes]

/-- Two bytes differ by less than the modulus. -/
theorem frameChecksum_changed_byte (as bs : List Byte) {x y : Byte} (h : x ≠ y) :
    frameChecksum (as ++ x :: bs) ≠ frameChecksum (as ++ y :: bs) := by
  rw [Ne, frameChecksum_eq_frameChecksum_iff, sumBytes_append_cons, sumBytes_append_cons]
  have := BitVec.toNat_ne.mp h
  omega

/-! ### The list operations through `ACC` (R127, R128) -/

theorem accResult_accRun (s : State) : accResult (accRun s).acc = frameChecksum s.ports.acBytes := by
  rw [accRun_eq, accResult_ofNat, frameChecksum]

theorem exec_frameChecksum (s : State) :
    exec .frameChecksum s = .next ((accRun s).setResult (.ok (.u16 (frameChecksum s.ports.acBytes)))) := by
  rw [← accResult_accRun]; rfl

theorem exec_frameChecksumVerify (s : State) :
    exec .frameChecksumVerify s =
      .next ((accRun s).setResult
        (if (sumBytes s.ports.acBytes + s.ports.acRx.toNat) % 65536 = 0 then .ok .unit
          else .err .checksumMismatch)) := by
  have received : (accRun s).ports.acRx = s.ports.acRx := by rw [accRun_eq]
  simp only [← frameChecksum_eq_iff, ← accResult_accRun, ← received]
  rfl

/-- Settles O7: the run of the accumulator leaves the sum in `ACC`, and the checksum is a function of the sum modulo
65536, one to one. -/
theorem frameChecksumOperations : Obligations.FrameChecksumOperations := by
  unfold Obligations.FrameChecksumOperations
  refine ⟨fun s => ⟨[], (exec_frameChecksum s).trans ?checksum, (exec_frameChecksumVerify s).trans ?verify⟩,
    sumBytes_add_frameChecksum, fun bytes bytes' perm => ?order,
    fun as bs _ _ h => frameChecksum_changed_byte as bs h⟩
  case checksum => rw [accRun_eq]; rfl
  case verify => rw [accRun_eq]; rfl
  case order => rw [frameChecksum_eq_frameChecksum_iff, sumBytes_perm perm]

end Sys2Proof.Proofs
end

section
/-! PROOFS. `Encode` at the functional level: the bytes of its frame, and what `Decode` makes of them (R140 to R142,
R148). -/

namespace Sys2Proof.Proofs

open Sys2Proof Sys2Proof.Machine Sys2Proof.Safety Sys2Proof.Laws

/-! ### The frame of legal operands (R140, R141) -/

/-- The bytes that the frame checksum covers: offsets 1..12 + 2 * len(p) (R140). -/
def frameBody (a f : Byte) (p : List Byte) : List Byte :=
  headerChars a f (BitVec.ofNat 12 (2 * p.length)) ++ p.flatMap encodeByte

/-- The bytes between the markers: the body and its checksum. -/
def frameDigits (a f : Byte) (p : List Byte) : List Byte :=
  frameBody a f p ++ encodeU16 (frameChecksum (frameBody a f p))

/-- The frame that `Encode` builds of these operands when they are legal. -/
def frameBytes (a f : Byte) (p : List Byte) : List Byte := Config.soi :: (frameDigits a f p ++ [Config.eoi])

theorem encodeFrame_bad_address {a : Byte} (f : Byte) (p : List Byte) (ha : 15 < a.toNat) :
    encodeFrame a f p = .err .invalidAddress := if_pos ha

theorem encodeFrame_long_payload {a : Byte} (f : Byte) {p : List Byte} (ha : a.toNat ≤ 15) (hp : 2047 < p.length) :
    encodeFrame a f p = .err .payloadTooLarge := by
  have long : 2 * p.length > Config.maxHexlen := by rw [Config.maxHexlen]; omega
  exact (if_neg (Nat.not_lt.mpr ha)).trans (if_pos long)

theorem encodeFrame_legal {a : Byte} (f : Byte) {p : List Byte} (ha : a.toNat ≤ 15) (hp : p.length ≤ 2047) :
    encodeFrame a f p = .ok (frameBytes a f p) := by
  have fits : ¬ 2 * p.length > Config.maxHexlen := by rw [Config.maxHexlen]; omega
  refine ((if_neg (Nat.not_lt.mpr ha)).trans (if_neg fits)).trans ?_
  simp [frameBytes, frameDigits, frameBody]

/-- A frame comes from legal operands, and is theirs (R141). -/
theorem encodeFrame_eq_ok_iff {a f : Byte} {p frame : List Byte} :
    encodeFrame a f p = .ok frame ↔ a.toNat ≤ 15 ∧ p.length ≤ 2047 ∧ frame = frameBytes a f p := by
  constructor
  · intro h
    rcases Nat.lt_or_ge 15 a.toNat with bad | ha
    · rw [encodeFrame_bad_address f p bad] at h; cases h
    rcases Nat.lt_or_ge 2047 p.length with long | hp
    · rw [encodeFrame_long_payload f ha long] at h; cases h
    rw [encodeFrame_legal f ha hp] at h
    exact ⟨ha, hp, (EncodeVerdict.ok.inj h).symm⟩
  · rintro ⟨ha, hp, rfl⟩
    exact encodeFrame_legal f ha hp

/-! ### Its parts and their offsets (R142) -/

theorem getElem?_of_drop {raw rest : List Byte} {i : Nat} (h : raw.drop i = rest) (k : Nat) :
    raw[i + k]? = rest[k]? := by
  rw [← h, List.getElem?_drop]

theorem length_headerChars (a f : Byte) (l : Len12) : (headerChars a f l).length = 12 := rfl

theorem length_flatMap_encodeByte (p : List Byte) : (p.flatMap encodeByte).length = 2 * p.length := by
  induction p with
  | nil => rfl
  | cons b p ih => simp [encodeByte, ih]; omega

theorem length_frameBody (a f : Byte) (p : List Byte) : (frameBody a f p).length = 12 + 2 * p.length := by
  rw [frameBody, List.length_append, length_headerChars, length_flatMap_encodeByte]

theorem length_frameDigits (a f : Byte) (p : List Byte) : (frameDigits a f p).length = 16 + 2 * p.length := by
  rw [frameDigits, List.length_append, length_frameBody, show (encodeU16 _).length = 4 from rfl]; omega

theorem length_frameBytes (a f : Byte) (p : List Byte) : (frameBytes a f p).length = 18 + 2 * p.length := by
  rw [frameBytes, List.length_cons, List.length_append, length_frameDigits, List.length_singleton]; omega

theorem drop_one_frameBytes (a f : Byte) (p : List Byte) :
    (frameBytes a f p).drop 1 = frameDigits a f p ++ [Config.eoi] := rfl

theorem digits_of_frameBytes (a f : Byte) (p : List Byte) :
    ((frameBytes a f p).drop 1).take (16 + 2 * p.length) = frameDigits a f p := by
  rw [drop_one_frameBytes, List.take_left' (length_frameDigits a f p)]

theorem body_of_frameBytes (a f : Byte) (p : List Byte) :
    ((frameBytes a f p).drop 1).take (12 + 2 * p.length) = frameBody a f p := by
  rw [drop_one_frameBytes, frameDigits, List.append_assoc, List.take_left' (length_frameBody a f p)]

/-- Each payload byte has two characters, so payload byte `i` starts at character `2 * i`. -/
theorem drop_flatMap_encodeByte (p : List Byte) (i : Nat) :
    (p.flatMap encodeByte).drop (2 * i) = (p.drop i).flatMap encodeByte := by
  induction i generalizing p with
  | zero => rfl
  | succ i ih =>
    cases p with
    | nil => simp
    | cons b p => exact ih p

/-- From the place of payload byte `i` on (also where `i` is the payload's length): the rest of the payload, the checksum
and the terminator. -/
theorem drop_frameBytes (a f : Byte) {p : List Byte} {i : Nat} (hi : i ≤ p.length) :
    (frameBytes a f p).drop (13 + 2 * i) =
      (p.drop i).flatMap encodeByte ++ (encodeU16 (frameChecksum (frameBody a f p)) ++ [Config.eoi]) := by
  have header : (Config.soi :: headerChars a f (BitVec.ofNat 12 (2 * p.length))).length = 13 := rfl
  have parts : frameBytes a f p = (Config.soi :: headerChars a f (BitVec.ofNat 12 (2 * p.length))) ++
      (p.flatMap encodeByte ++ (encodeU16 (frameChecksum (frameBody a f p)) ++ [Config.eoi])) := by
    simp [frameBytes, frameDigits, frameBody]
  rw [parts, ← List.drop_drop, List.drop_left' header,
    List.drop_append_of_le_length (by rw [length_flatMap_encodeByte]; omega), drop_flatMap_encodeByte]

theorem drop_frameBytes_payload (a f : Byte) {p : List Byte} {i : Nat} (hi : i < p.length) :
    (frameBytes a f p).drop (13 + 2 * i) =
      encodeByte p[i] ++ ((p.drop (i + 1)).flatMap encodeByte ++
        (encodeU16 (frameChecksum (frameBody a f p)) ++ [Config.eoi])) := by
  rw [drop_frameBytes a f hi.le, List.drop_eq_getElem_cons hi, List.flatMap_cons, List.append_assoc]

theorem drop_frameBytes_checksum (a f : Byte) (p : List Byte) :
    (frameBytes a f p).drop (13 + 2 * p.length) =
      encodeU16 (frameChecksum (frameBody a f p)) ++ [Config.eoi] := by
  rw [drop_frameBytes a f le_rfl, List.drop_length, List.flatMap_nil, List.nil_append]

theorem getElem?_frameBytes_eoi (a f : Byte) (p : List Byte) :
    (frameBytes a f p)[17 + 2 * p.length]? = some Config.eoi := by
  rw [show 17 + 2 * p.length = 13 + 2 * p.length + 4 by omega]
  exact getElem?_of_drop (drop_frameBytes_checksum a f p) 4

/-- Every byte between the markers is an uppercase digit. -/
theorem exists_encodeNibble_of_mem_frameDigits {a f c : Byte} {p : List Byte} (h : c ∈ frameDigits a f p) :
    ∃ n, c = encodeNibble n := by
  simp only [frameDigits, frameBody, headerChars, List.mem_append, List.mem_flatMap] at h
  rcases h with ((((((h | h) | h) | h) | h) | ⟨_, _, h⟩) | h)
  case inr => exact exists_encodeNibble_of_mem_encodeU16 h
  case inl.inl.inr => exact exists_encodeNibble_of_mem_encodeU16 h
  all_goals exact exists_encodeNibble_of_mem_encodeByte h

/-! ### Which operands Encode refuses, and every byte of its frame (R141, R142) -/

theorem encodeU16_lengthFieldBuild (l : Len12) :
    encodeU16 (lengthFieldBuild l) =
      [hexCharOf (nibbleCheck l.toNat), hexCharOf (l.toNat / 256), hexCharOf (l.toNat / 16 % 16),
        hexCharOf (l.toNat % 16)] := by
  have check := nibbleCheck_lt l.toNat
  have digit3 : (4096 * nibbleCheck l.toNat + l.toNat) / 4096 = nibbleCheck l.toNat := by omega
  have digit2 : (4096 * nibbleCheck l.toNat + l.toNat) / 256 % 16 = l.toNat / 256 := by omega
  have digit1 : (4096 * nibbleCheck l.toNat + l.toNat) / 16 % 16 = l.toNat / 16 % 16 := by omega
  have digit0 : (4096 * nibbleCheck l.toNat + l.toNat) % 16 = l.toNat % 16 := by omega
  rw [encodeU16_eq, lengthFieldBuild_toNat, digit3, digit2, digit1, digit0]

theorem hexlen_toNat {p : List Byte} (hp : p.length ≤ 2047) :
    (BitVec.ofNat 12 (2 * p.length)).toNat = 2 * p.length := by
  rw [BitVec.toNat_ofNat]; omega

/-- The start marker and the twelve header characters. -/
theorem take_frameBytes {a : Byte} (f : Byte) {p : List Byte} (ha : a.toNat ≤ 15) (hp : p.length ≤ 2047) :
    (frameBytes a f p).take 13 =
      [0x7E, 0x32, 0x30, 0x30, hexCharOf a.toNat, 0x34, 0x36, hexCharOf (f.toNat / 16), hexCharOf (f.toNat % 16),
        hexCharOf (nibbleCheck (2 * p.length)), hexCharOf (2 * p.length / 256),
        hexCharOf (2 * p.length / 16 % 16), hexCharOf (2 * p.length % 16)] := by
  have address : encodeByte a = [0x30, hexCharOf a.toNat] := by
    rw [encodeByte_eq, Nat.div_eq_of_lt (by omega), Nat.mod_eq_of_lt (by omega)]; rfl
  calc (frameBytes a f p).take 13
      = Config.soi :: headerChars a f (BitVec.ofNat 12 (2 * p.length)) := rfl
    _ = _ := by
      rw [headerChars, address, encodeByte_eq f, encodeU16_lengthFieldBuild, hexlen_toNat hp]; rfl

theorem getElem?_frameBytes_payload (a f : Byte) {p : List Byte} {i : Nat} {b : Byte} (hb : p[i]? = some b) :
    (frameBytes a f p)[13 + 2 * i]? = some (hexCharOf (b.toNat / 16)) ∧
      (frameBytes a f p)[14 + 2 * i]? = some (hexCharOf (b.toNat % 16)) := by
  obtain ⟨hi, rfl⟩ := List.getElem?_eq_some_iff.mp hb
  have chars := drop_frameBytes_payload a f hi
  rw [encodeByte_eq] at chars
  rw [show 14 + 2 * i = 13 + 2 * i + 1 by omega]
  exact ⟨getElem?_of_drop chars 0, getElem?_of_drop chars 1⟩

/-- Settles O11: the two refusals in their order, and the frame part by part at the offsets of its parts. -/
theorem encodedFrameLayout : Obligations.EncodedFrameLayout := by
  unfold Obligations.EncodedFrameLayout
  refine fun a f p => ⟨encodeFrame_bad_address f p, encodeFrame_long_payload f,
    fun ha hp => ⟨frameBytes a f p, encodeFrame_legal f ha hp, ?_⟩⟩
  dsimp only
  refine ⟨length_frameBytes a f p, take_frameBytes f ha hp, fun i b => getElem?_frameBytes_payload a f,
    ?checksum, fun x hx => ?uppercase⟩
  case checksum =>
    rw [drop_frameBytes_checksum, encodeU16_eq, frameChecksum_toNat, body_of_frameBytes]; rfl
  case uppercase =>
    rw [digits_of_frameBytes] at hx
    obtain ⟨n, rfl⟩ := exists_encodeNibble_of_mem_frameDigits hx
    exact ⟨n.toNat, n.isLt, encodeNibble_eq n⟩

/-! ### Decode check by check (R160) -/

/-- The scan finds nothing to refuse exactly when each of its offsets holds a hex digit. -/
theorem scanHex_eq_none_iff {raw : List Byte} {i count : Nat} :
    scanHex raw i count = none ↔ ∀ k < count, ∃ c, raw[i + k]? = some c ∧ isHex c = true := by
  induction count generalizing i with
  | zero => simp [scanHex]
  | succ count ih =>
    rw [Nat.forall_lt_succ_left']
    unfold scanHex
    cases h : raw[i]? with
    | none => simp
    | some c => cases hc : isHex c <;> simp [hc, ih, Nat.add_assoc, Nat.add_comm 1]

theorem byteAt_of_drop {raw rest : List Byte} {i : Nat} {b : Byte} (h : raw.drop i = encodeByte b ++ rest) :
    byteAt raw i = b := by
  have c0 : raw[i]? = some (encodeNibble (highNibble b)) := getElem?_of_drop h 0
  have c1 : raw[i + 1]? = some (encodeNibble (lowNibble b)) := getElem?_of_drop h 1
  simp [byteAt, c0, c1, decodeByte_encodeByte]

theorem wordAt_of_drop {raw rest : List Byte} {i : Nat} {w : U16} (h : raw.drop i = encodeU16 w ++ rest) :
    wordAt raw i = w := by
  have c0 : raw[i]? = some (encodeNibble (w.extractLsb' 12 4)) := getElem?_of_drop h 0
  have c1 : raw[i + 1]? = some (encodeNibble (w.extractLsb' 8 4)) := getElem?_of_drop h 1
  have c2 : raw[i + 2]? = some (encodeNibble (w.extractLsb' 4 4)) := getElem?_of_drop h 2
  have c3 : raw[i + 3]? = some (encodeNibble (w.extractLsb' 0 4)) := getElem?_of_drop h 3
  simp only [wordAt, c0, c1, c2, c3, Option.getD_some, decodeU16_encodeU16]

/-- Steps 1 and 2 pass. -/
theorem decodeFrame_eq_decodeBody {raw : List Byte} (soi : raw[0]? = some Config.soi)
    (digits : scanHex raw 1 12 = none) : decodeFrame raw = decodeBody raw := by
  simp [decodeFrame, soi, digits]

/-- Steps 3 and 4 pass. -/
theorem decodeBody_eq_decodeTail {raw : List Byte} {l : Len12} (length : lengthFieldCheck (wordAt raw 9) = some l)
    (even : l.toNat % 2 = 0) (digits : scanHex raw 13 (l.toNat + 4) = none) :
    decodeBody raw = decodeTail raw l.toNat := by
  simp [decodeBody, length, even, digits]

/-- Steps 5 to 7 pass. -/
theorem decodeTail_eq_ok {raw : List Byte} {n : Nat}
    (checksum : frameChecksum ((raw.drop 1).take (12 + n)) = wordAt raw (13 + n))
    (eoi : raw[17 + n]? = some Config.eoi) :
    decodeTail raw n =
      .ok { version := byteAt raw 1, address := byteAt raw 3, deviceType := byteAt raw 5, status := byteAt raw 7
            payload := (List.range (n / 2)).map fun i => byteAt raw (13 + 2 * i) } (18 + n) := by
  simp only [decodeTail, checksum, eoi, ne_eq, not_true_eq_false, if_false]

/-! ### Decode on an encoded frame (R148) -/

theorem scanHex_frameBytes (a f : Byte) (p : List Byte) {i count : Nat} (hi : 1 ≤ i)
    (hcount : i + count ≤ 17 + 2 * p.length) : scanHex (frameBytes a f p) i count = none := by
  refine scanHex_eq_none_iff.mpr fun k hk => ?_
  have inDigits : i - 1 + k < (frameDigits a f p).length := by rw [length_frameDigits]; omega
  obtain ⟨n, hn⟩ := exists_encodeNibble_of_mem_frameDigits (List.getElem_mem inDigits)
  refine ⟨encodeNibble n, ?_, by simp [isHex]⟩
  rw [show i + k = 1 + (i - 1 + k) by omega, getElem?_of_drop (drop_one_frameBytes a f p),
    List.getElem?_append_left inDigits, List.getElem?_eq_getElem inDigits, hn]

theorem wordAt_frameBytes_length (a f : Byte) (p : List Byte) :
    wordAt (frameBytes a f p) 9 = lengthFieldBuild (BitVec.ofNat 12 (2 * p.length)) := wordAt_of_drop rfl

theorem lengthFieldCheck_frameBytes (a f : Byte) (p : List Byte) :
    lengthFieldCheck (wordAt (frameBytes a f p) 9) = some (BitVec.ofNat 12 (2 * p.length)) := by
  rw [wordAt_frameBytes_length, lengthFieldCheck_build]

/-- Cutting the payload field into pairs and decoding each gives the payload back. -/
theorem payload_frameBytes (a f : Byte) (p : List Byte) :
    ((List.range (2 * p.length / 2)).map fun i => byteAt (frameBytes a f p) (13 + 2 * i)) = p := by
  rw [Nat.mul_div_cancel_left _ two_pos]
  refine List.ext_getElem (by simp) fun i _ hi => ?_
  rw [List.getElem_map, List.getElem_range, byteAt_of_drop (drop_frameBytes_payload a f hi)]

/-- The round trip (R148 (b)). -/
theorem decodeFrame_frameBytes (a f : Byte) {p : List Byte} (hp : p.length ≤ 2047) :
    decodeFrame (frameBytes a f p) =
      .ok { version := 0x20, address := a, deviceType := 0x46, status := f, payload := p } (18 + 2 * p.length) := by
  have hexlen := hexlen_toNat hp
  have even : (BitVec.ofNat 12 (2 * p.length)).toNat % 2 = 0 := by omega
  have checksum : frameChecksum (((frameBytes a f p).drop 1).take (12 + 2 * p.length)) =
      wordAt (frameBytes a f p) (13 + 2 * p.length) := by
    rw [body_of_frameBytes, wordAt_of_drop (drop_frameBytes_checksum a f p)]
  have version : byteAt (frameBytes a f p) 1 = 0x20 := byteAt_of_drop rfl
  have address : byteAt (frameBytes a f p) 3 = a := byteAt_of_drop rfl
  have device : byteAt (frameBytes a f p) 5 = 0x46 := byteAt_of_drop rfl
  have status : byteAt (frameBytes a f p) 7 = f := byteAt_of_drop rfl
  rw [decodeFrame_eq_decodeBody rfl (scanHex_frameBytes a f p le_rfl (by omega)),
    decodeBody_eq_decodeTail (lengthFieldCheck_frameBytes a f p) even
      (scanHex_frameBytes a f p (by decide) (by omega)),
    hexlen, decodeTail_eq_ok checksum (getElem?_frameBytes_eoi a f p), version, address, device, status,
    payload_frameBytes]

/-- `Decode` tells the operands apart, so `Encode` is injective (R148 (d)). -/
theorem operands_eq_of_frameBytes_eq {a f a' f' : Byte} {p p' : List Byte} (hp : p.length ≤ 2047)
    (hp' : p'.length ≤ 2047) (h : frameBytes a f p = frameBytes a' f' p') : a = a' ∧ f = f' ∧ p = p' := by
  have replies := decodeFrame_frameBytes a f hp
  rw [h, decodeFrame_frameBytes a' f' hp'] at replies
  injection replies with reply
  injection reply with _ address _ status payload
  exact ⟨address.symm, status.symm, payload.symm⟩

/-- Settles O16: a frame is `frameBytes` of legal operands; its length and its length word are read off that, the round
trip goes through `Decode` check by check, and injectivity follows from it. -/
theorem decodeInvertsEncode : Obligations.DecodeInvertsEncode := by
  unfold Obligations.DecodeInvertsEncode
  refine ⟨fun a f p frame h => ?roundTrip, fun a f p ha hp => ⟨_, encodeFrame_legal f ha hp⟩,
    fun a f a' f' p p' frame h h' => ?injective⟩
  case roundTrip =>
    obtain ⟨-, hp, rfl⟩ := encodeFrame_eq_ok_iff.mp h
    exact ⟨length_frameBytes a f p, decodeFrame_frameBytes a f hp, lengthFieldCheck_frameBytes a f p⟩
  case injective =>
    obtain ⟨-, hp, rfl⟩ := encodeFrame_eq_ok_iff.mp h
    obtain ⟨-, hp', same⟩ := encodeFrame_eq_ok_iff.mp h'
    exact operands_eq_of_frameBytes_eq hp hp' same

end Sys2Proof.Proofs
end

section
/-! PROOFS. `Decode` at the functional level: which lists it accepts, and with what results (R162, R165, R178). -/

namespace Sys2Proof.Proofs

open Sys2Proof Sys2Proof.Machine Sys2Proof.Safety Sys2Proof.Laws

/-! ### Decoding fields whose digits are there (R104, R105) -/

theorem hexValue_ne_none_iff (c : Byte) : hexValue c ≠ none ↔ isHex c = true := by
  rw [hexValue_eq, isHex, Ne, Option.map_eq_none_iff, ← Ne, Option.isSome_iff_ne_none]

/-- The `count` bytes from offset `i` on are there and are hex digits. -/
def DigitsAt (raw : List Byte) (i count : Nat) : Prop := ∀ k < count, ∃ c, raw[i + k]? = some c ∧ isHex c = true

/-- A field inside a run of digits is one. -/
theorem DigitsAt.sub {raw : List Byte} {i count j width : Nat} (h : DigitsAt raw i count) (lower : i ≤ j)
    (upper : j + width ≤ i + count) : DigitsAt raw j width := fun k hk => by
  have inside := h (j - i + k) (by omega)
  rwa [show i + (j - i + k) = j + k by omega] at inside

theorem hexValues_byteAt {raw : List Byte} {i : Nat} (h : DigitsAt raw i 2) :
    hexValues ((raw.drop i).take 2) = some (byteAt raw i).toNat := by
  obtain ⟨a, ha, hexa⟩ := h 0 (by decide)
  obtain ⟨b, hb, hexb⟩ := h 1 (by decide)
  rw [Nat.add_zero] at ha
  have chars : (raw.drop i).take 2 = [a, b] := by simp [List.take_add_one, ha, hb]
  obtain ⟨v, hv⟩ := Option.isSome_iff_exists.mp
    (show (decodeByte a b).isSome = true by rw [isSome_decodeByte, hexa, hexb]; rfl)
  simp [chars, hexValues_two, byteAt, ha, hb, hv]

theorem hexValues_wordAt {raw : List Byte} {i : Nat} (h : DigitsAt raw i 4) :
    hexValues ((raw.drop i).take 4) = some (wordAt raw i).toNat := by
  obtain ⟨a, ha, hexa⟩ := h 0 (by decide)
  obtain ⟨b, hb, hexb⟩ := h 1 (by decide)
  obtain ⟨c, hc, hexc⟩ := h 2 (by decide)
  obtain ⟨d, hd, hexd⟩ := h 3 (by decide)
  rw [Nat.add_zero] at ha
  have chars : (raw.drop i).take 4 = [a, b, c, d] := by simp [List.take_add_one, ha, hb, hc, hd]
  obtain ⟨v, hv⟩ := Option.isSome_iff_exists.mp
    (show (decodeU16 a b c d).isSome = true by rw [isSome_decodeU16, hexa, hexb, hexc, hexd]; rfl)
  simp [chars, hexValues_four, wordAt, ha, hb, hc, hd, hv]

/-! ### The checks of R160 as the invariants of R162 -/

/-- The two scans of `Decode` together look at offsets 1..16 + n. -/
theorem scans_eq_none_iff {raw : List Byte} {n : Nat} :
    scanHex raw 1 12 = none ∧ scanHex raw 13 (n + 4) = none ↔ DigitsAt raw 1 (16 + n) := by
  rw [scanHex_eq_none_iff, scanHex_eq_none_iff]
  refine ⟨fun ⟨header, rest⟩ k hk => ?_, fun h => ⟨h.sub le_rfl (by omega), h.sub (by omega) (by omega)⟩⟩
  rcases Nat.lt_or_ge k 12 with inHeader | past
  · exact header k inHeader
  · have inRest := rest (k - 12) (by omega)
    rwa [show 13 + (k - 12) = 1 + k by omega] at inRest

theorem digitsAt_iff {raw : List Byte} {n : Nat} :
    DigitsAt raw 1 (16 + n) ↔ ∀ i, 1 ≤ i → i ≤ 16 + n → ∃ c, raw[i]? = some c ∧ hexValue c ≠ none := by
  simp only [hexValue_ne_none_iff]
  refine ⟨fun h i lower upper => ?_, fun h k hk => h (1 + k) (by omega) (by omega)⟩
  have digit := h (i - 1) (by omega)
  rwa [Nat.add_sub_cancel' lower] at digit

theorem lengthFieldCheck_wordAt_iff {raw : List Byte} {l : Len12} (h : DigitsAt raw 9 4) :
    lengthFieldCheck (wordAt raw 9) = some l ↔
      hexValues ((raw.drop 9).take 4) = some (4096 * nibbleCheck l.toNat + l.toNat) := by
  rw [lengthFieldCheck_eq_some_iff, hexValues_wordAt h, Option.some_inj, ← BitVec.toNat_inj, lengthFieldBuild_toNat]

theorem frameChecksum_eq_wordAt_iff {raw body : List Byte} {i : Nat} (h : DigitsAt raw i 4) :
    frameChecksum body = wordAt raw i ↔ hexValues ((raw.drop i).take 4) = some (checksumOf body) := by
  rw [hexValues_wordAt h, Option.some_inj, ← BitVec.toNat_inj, frameChecksum_toNat, eq_comm]

/-- `Accepted` in the terms of `Decode`'s own checks, with the length as the length field gives it. -/
theorem accepted_toNat_iff {raw : List Byte} {l : Len12} :
    Accepted raw l.toNat ↔
      raw[0]? = some Config.soi ∧ DigitsAt raw 1 (16 + l.toNat) ∧ lengthFieldCheck (wordAt raw 9) = some l ∧
      l.toNat % 2 = 0 ∧ frameChecksum ((raw.drop 1).take (12 + l.toNat)) = wordAt raw (13 + l.toNat) ∧
      raw[17 + l.toNat]? = some Config.eoi := by
  constructor
  · rintro ⟨-, even, -, soi, eoi, length, digits, checksum⟩
    have digits := digitsAt_iff.mpr digits
    exact ⟨soi, digits, (lengthFieldCheck_wordAt_iff (digits.sub (by decide) (by omega))).mpr length, even,
      (frameChecksum_eq_wordAt_iff (digits.sub (by omega) (by omega))).mpr checksum, eoi⟩
  · rintro ⟨soi, digits, length, even, checksum, eoi⟩
    obtain ⟨inside, -⟩ := List.getElem?_eq_some_iff.mp eoi
    exact ⟨l.isLt, even, by omega, soi, eoi,
      (lengthFieldCheck_wordAt_iff (digits.sub (by decide) (by omega))).mp length, digitsAt_iff.mp digits,
      (frameChecksum_eq_wordAt_iff (digits.sub (by omega) (by omega))).mp checksum⟩

/-! ### Which lists Decode accepts, and with what (R162, R165) -/

/-- The results of R165, decoded from their offsets. -/
def replyAt (raw : List Byte) (n : Nat) : Reply :=
  { version := byteAt raw 1, address := byteAt raw 3, deviceType := byteAt raw 5, status := byteAt raw 7
    payload := (List.range (n / 2)).map fun i => byteAt raw (13 + 2 * i) }

theorem decodeTail_eq_ok_iff {raw : List Byte} {n m : Nat} {reply : Reply} :
    decodeTail raw n = .ok reply m ↔
      frameChecksum ((raw.drop 1).take (12 + n)) = wordAt raw (13 + n) ∧ raw[17 + n]? = some Config.eoi ∧
      reply = replyAt raw n ∧ m = 18 + n := by
  constructor
  · intro h
    unfold decodeTail at h
    split_ifs at h with checksum
    split at h
    · cases h
    next c eoi =>
      split_ifs at h with marker
      cases h
      exact ⟨not_not.mp checksum, not_not.mp marker ▸ eoi, rfl, rfl⟩
  · rintro ⟨checksum, eoi, rfl, rfl⟩
    exact decodeTail_eq_ok checksum eoi

theorem decodeBody_eq_ok_iff {raw : List Byte} {m : Nat} {reply : Reply} :
    decodeBody raw = .ok reply m ↔
      ∃ l, lengthFieldCheck (wordAt raw 9) = some l ∧ l.toNat % 2 = 0 ∧ scanHex raw 13 (l.toNat + 4) = none ∧
        decodeTail raw l.toNat = .ok reply m := by
  constructor
  · intro h
    unfold decodeBody at h
    split at h
    · cases h
    next l length =>
      split_ifs at h with odd
      split at h
      · cases h
      next digits => exact ⟨l, length, by omega, digits, h⟩
  · rintro ⟨l, length, even, digits, h⟩
    rw [decodeBody_eq_decodeTail length even digits, h]

theorem decodeFrame_eq_ok_iff_decodeBody {raw : List Byte} {m : Nat} {reply : Reply} :
    decodeFrame raw = .ok reply m ↔
      raw[0]? = some Config.soi ∧ scanHex raw 1 12 = none ∧ decodeBody raw = .ok reply m := by
  constructor
  · intro h
    unfold decodeFrame at h
    split at h
    · cases h
    next c soi =>
      split_ifs at h with marker
      split at h
      · cases h
      next digits => exact ⟨not_not.mp marker ▸ soi, digits, h⟩
  · rintro ⟨soi, digits, h⟩
    rw [decodeFrame_eq_decodeBody soi digits, h]

/-- `Decode` accepts the frames that keep the invariants, and no other list. -/
theorem decodeFrame_eq_ok_iff {raw : List Byte} {m : Nat} {reply : Reply} :
    decodeFrame raw = .ok reply m ↔ ∃ n, Accepted raw n ∧ reply = replyAt raw n ∧ m = 18 + n := by
  rw [decodeFrame_eq_ok_iff_decodeBody, decodeBody_eq_ok_iff]
  constructor
  · rintro ⟨soi, header, l, length, even, rest, tail⟩
    obtain ⟨checksum, eoi, rfl, rfl⟩ := decodeTail_eq_ok_iff.mp tail
    exact ⟨l.toNat, accepted_toNat_iff.mpr ⟨soi, scans_eq_none_iff.mp ⟨header, rest⟩, length, even, checksum, eoi⟩,
      rfl, rfl⟩
  · rintro ⟨n, accepted, rfl, rfl⟩
    have ⟨bound, _⟩ := accepted
    obtain ⟨l, rfl⟩ : ∃ l : Len12, l.toNat = n := ⟨.ofNatLT n bound, BitVec.toNat_ofNatLT n bound⟩
    obtain ⟨soi, digits, length, even, checksum, eoi⟩ := accepted_toNat_iff.mp accepted
    obtain ⟨header, rest⟩ := scans_eq_none_iff.mpr digits
    exact ⟨soi, header, l, length, even, rest, decodeTail_eq_ok_iff.mpr ⟨checksum, eoi, rfl, rfl⟩⟩

theorem length_payload_replyAt (raw : List Byte) (n : Nat) : (replyAt raw n).payload.length = n / 2 := by
  simp [replyAt]

theorem getElem?_payload_replyAt {raw : List Byte} {n i : Nat} {b : Byte} (h : (replyAt raw n).payload[i]? = some b) :
    i < n / 2 ∧ b = byteAt raw (13 + 2 * i) := by
  obtain ⟨inside, rfl⟩ := List.getElem?_eq_some_iff.mp h
  exact ⟨length_payload_replyAt raw n ▸ inside, by simp [replyAt]⟩

/-! ### Later bytes play no part (R178) -/

theorem getElem?_of_take_eq {raw raw' : List Byte} {m i : Nat} (h : raw.take m = raw'.take m) (hi : i < m) :
    raw[i]? = raw'[i]? := by
  rw [← List.getElem?_take_of_lt hi, h, List.getElem?_take_of_lt hi]

theorem take_drop_of_take_eq {raw raw' : List Byte} {m i width : Nat} (h : raw.take m = raw'.take m)
    (fits : i + width ≤ m) : (raw.drop i).take width = (raw'.drop i).take width := by
  rw [List.take_drop, List.take_drop, ← Nat.min_eq_left fits, ← List.take_take, ← List.take_take, h]

theorem byteAt_of_take_eq {raw raw' : List Byte} {m i : Nat} (h : raw.take m = raw'.take m) (fits : i + 2 ≤ m) :
    byteAt raw i = byteAt raw' i := by
  rw [byteAt, byteAt, getElem?_of_take_eq h (by omega), getElem?_of_take_eq h (by omega)]

theorem accepted_of_take_eq {raw raw' : List Byte} {n : Nat} (accepted : Accepted raw n)
    (h : raw.take (18 + n) = raw'.take (18 + n)) : Accepted raw' n := by
  obtain ⟨bound, even, long, soi, eoi, length, digits, checksum⟩ := accepted
  rw [getElem?_of_take_eq h (by omega)] at soi eoi
  rw [take_drop_of_take_eq h (by omega)] at length checksum
  rw [take_drop_of_take_eq h (by omega)] at checksum
  obtain ⟨inside, -⟩ := List.getElem?_eq_some_iff.mp eoi
  refine ⟨bound, even, by omega, soi, eoi, length, fun i lower upper => ?_, checksum⟩
  rw [← getElem?_of_take_eq h (by omega)]
  exact digits i lower upper

theorem replyAt_of_take_eq {raw raw' : List Byte} {n : Nat} (h : raw.take (18 + n) = raw'.take (18 + n)) :
    replyAt raw n = replyAt raw' n := by
  have payload : (List.range (n / 2)).map (fun i => byteAt raw (13 + 2 * i)) =
      (List.range (n / 2)).map (fun i => byteAt raw' (13 + 2 * i)) := by
    refine List.map_congr_left fun i hi => byteAt_of_take_eq h ?_
    have := List.mem_range.mp hi
    omega
  rw [replyAt, replyAt, payload, byteAt_of_take_eq h (by omega), byteAt_of_take_eq h (by omega),
    byteAt_of_take_eq h (by omega), byteAt_of_take_eq h (by omega)]

/-- Settles O15: `Decode`'s checks are the invariants, its results are read off the digits that the invariants give, and
both look at no byte past the frame. -/
theorem decodeAcceptsExactlyValidFrames : Obligations.DecodeAcceptsExactlyValidFrames := by
  unfold Obligations.DecodeAcceptsExactlyValidFrames
  refine fun raw => ⟨fun n accepted => ?results, fun reply m h => ?onlyValid, fun reply m more h => ?laterBytes⟩
  case results =>
    have ⟨_, _, _, _, _, _, digits, _⟩ := accepted
    have field (i : Nat) (lower : 1 ≤ i) (upper : i + 2 ≤ 1 + (16 + n)) :
        hexValues ((raw.drop i).take 2) = some (byteAt raw i).toNat :=
      hexValues_byteAt ((digitsAt_iff.mpr digits).sub lower upper)
    refine ⟨replyAt raw n, decodeFrame_eq_ok_iff.mpr ⟨n, accepted, rfl, rfl⟩, field 1 (by omega) (by omega),
      field 3 (by omega) (by omega), field 5 (by omega) (by omega), field 7 (by omega) (by omega),
      length_payload_replyAt raw n, fun i b hb => ?_⟩
    obtain ⟨inside, rfl⟩ := getElem?_payload_replyAt hb
    exact field _ (by omega) (by omega)
  case onlyValid =>
    obtain ⟨n, accepted, -, consumed⟩ := decodeFrame_eq_ok_iff.mp h
    exact ⟨n, accepted, consumed⟩
  case laterBytes =>
    obtain ⟨n, accepted, rfl, rfl⟩ := decodeFrame_eq_ok_iff.mp h
    have ⟨_, _, long, _⟩ := accepted
    have same : raw.take (18 + n) = (raw.take (18 + n) ++ more).take (18 + n) :=
      (List.take_left' (List.length_take_of_le long)).symm
    exact decodeFrame_eq_ok_iff.mpr ⟨n, accepted_of_take_eq accepted same, replyAt_of_take_eq same, rfl⟩

end Sys2Proof.Proofs
end

section
/-! PROOFS. The stand-alone frame_decoder over a clock edge: its start, its end and every byte (R167 to R174). -/

namespace Sys2Proof.Proofs

open Sys2Proof Sys2Proof.Machine Sys2Proof.Safety Sys2Proof.Laws

/-! ### The decoder's share of a clock edge (R22, R176) -/

/-- What a clock edge with these port levels makes of the stand-alone decoder: a start takes the whole cycle, and a byte is
consumed before the end (R176; log 16). -/
def decClocked (p : InPorts) (d : DecUnit) : DecUnit :=
  if p.deStart then decStart d
  else
    let t := if p.deInValid then decByte p.deInData d else d
    if p.deInEnd then decEnd t else t

theorem decClocked_start {p : InPorts} (d : DecUnit) (start : p.deStart = true) : decClocked p d = decStart d :=
  if_pos start

/-- A decoder at rest does nothing with a byte (R174). -/
theorem decByte_at_rest {d : DecUnit} (c : Byte) (rest : decAccepts d.phase = false) : decByte c d = d := by
  rcases decByte_cases c d with ⟨-, same⟩ | ⟨accepts, -⟩ | ⟨accepts, -⟩
  · exact same
  all_goals exact absurd (accepts.symm.trans rest) (by decide)

theorem decEnd_at_rest {d : DecUnit} (rest : decAccepts d.phase = false) : decEnd d = d := by
  simp [decEnd, rest]

theorem decClocked_at_rest {p : InPorts} {d : DecUnit} (rest : decAccepts d.phase = false)
    (start : p.deStart = false) : decClocked p d = d := by
  simp [decClocked, start, decByte_at_rest _ rest, decEnd_at_rest rest]

theorem decCycle_dec (s : State) : (decCycle s).dec = decClocked s.ports s.dec := by
  unfold decCycle decClocked
  split
  · rfl
  · cases accepts : decAccepts s.dec.phase with
    | true => simp only [Bool.and_true]
    | false => simp only [Bool.and_false, Bool.false_eq_true, decByte_at_rest _ accepts, ite_self]

/-- What the caller's `PBUF` port can change, where the byte it writes exists: the buffer, the sums of the two encoders and
the count of free values drawn (R41, R266). -/
theorem pbufCycle_frame {s : State} (h : s.ports.pbWe = false ∨ s.ports.pbIdx.toNat < 2047) :
    ∃ pbuf enc txnEnc draws,
      pbufCycle s = .next { s with pbuf := pbuf, enc := enc, txnEnc := txnEnc, draws := draws } := by
  rcases pbufCycle_cases s with ⟨-, e⟩ | ⟨write, missing, -⟩ | ⟨-, -, -, e⟩ | ⟨-, -, -, e⟩
  · exact ⟨_, _, _, _, e⟩
  · rcases h with quiet | inRange
    · simp [quiet] at write
    · omega
  · exact ⟨_, _, _, _, e⟩
  · exact ⟨_, _, _, _, e⟩

theorem pbufCycle_keeps_dec {s : State} (h : s.ports.pbWe = false ∨ s.ports.pbIdx.toNat < 2047) :
    ∃ t, pbufCycle s = .next t ∧ t.dec = s.dec ∧ t.ports = s.ports := by
  obtain ⟨_, _, _, _, e⟩ := pbufCycle_frame h
  exact ⟨_, e, rfl, rfl⟩

theorem accCycle_keeps_dec (s : State) : (accCycle s).dec = s.dec ∧ (accCycle s).ports = s.ports := by
  obtain ⟨acc, e⟩ := accCycle_frame s
  rw [e]
  exact ⟨rfl, rfl⟩

theorem encCycle_keeps_dec (s : State) : (encCycle s).dec = s.dec ∧ (encCycle s).ports = s.ports := by
  obtain ⟨r, taken, e⟩ := encCycle_frame s
  rw [e]
  exact ⟨rfl, rfl⟩

theorem txnCycle_dec (s : State) : (txnCycle s).dec = s.dec := by
  obtain ⟨-, -, -, dec, -⟩ := txnCycle_keeps s
  exact dec

/-- Over a clock edge the stand-alone decoder does what its own cycle does: no other block writes it. -/
theorem clockEdge_dec {s : State} (h : s.ports.pbWe = false ∨ s.ports.pbIdx.toNat < 2047) :
    ∃ t, clockEdge s = .next t ∧ t.dec = decClocked s.ports s.dec := by
  obtain ⟨u, e, dec, ports⟩ := pbufCycle_keeps_dec h
  obtain ⟨accDec, accPorts⟩ := accCycle_keeps_dec u
  obtain ⟨encDec, encPorts⟩ := encCycle_keeps_dec (accCycle u)
  refine ⟨txnCycle (decCycle (encCycle (accCycle u))), by simp only [clockEdge, e], ?_⟩
  rw [txnCycle_dec, decCycle_dec, encDec, encPorts, accDec, accPorts, dec, ports]

theorem step_clock_dec {s : State} {p : InPorts} {rest : List Stimulus} (hscript : s.script = .clock p :: rest)
    (hpbuf : p.pbWe = false ∨ p.pbIdx.toNat < 2047) : ∃ t, step s = .next t ∧ t.dec = decClocked p s.dec := by
  rw [step_clockEdge hscript]
  exact clockEdge_dec (s := (s.setScript rest).setPorts p) hpbuf

/-! ### Start and end (R167, R174) -/

theorem decTakeError_eq (e : ErrorName) (d : DecUnit) : decTakeError e d = decFailed e d := rfl

theorem decAccepts_eq_true_iff (ph : DPhase) :
    decAccepts ph = true ↔ ph = .soi ∨ ph = .hdr ∨ ph = .pay ∨ ph = .chk ∨ ph = .eoi := by
  cases ph <;> simp [decAccepts]

theorem decAccepts_eq_false_iff (ph : DPhase) :
    decAccepts ph = false ↔ ph = .idle ∨ ph = .ok ∨ ph = .fail := by
  cases ph <;> simp [decAccepts]

theorem decEnd_eq (d : DecUnit) :
    decEnd d = if d.phase = .soi ∨ d.phase = .hdr ∨ d.phase = .pay ∨ d.phase = .chk ∨ d.phase = .eoi
      then decFailed .truncatedFrame d else d := by
  simp only [decEnd, decAccepts_eq_true_iff, decTakeError_eq]

/-- Settles O19: the edge gives the decoder its own cycle, and each clause is a case of that cycle. -/
theorem decoderStartAndEnd : Obligations.DecoderStartAndEnd := by
  unfold Obligations.DecoderStartAndEnd
  intro s p rest hscript hpbuf
  obtain ⟨t, hstep, hdec⟩ := step_clock_dec hscript hpbuf
  refine ⟨t, hstep, fun start _ => ?start, fun start ending => ?ending, fun start ending valid => ?nothing,
    fun phase start => ?rest⟩
  case start => rw [hdec, decClocked_start _ start]; rfl
  case ending => simp only [hdec, decClocked, start, ending, decEnd_eq, if_true, Bool.false_eq_true, if_false]
  case nothing => simp [hdec, decClocked, start, ending, valid]
  case rest => rw [hdec, decClocked_at_rest ((decAccepts_eq_false_iff _).mpr phase) start]

/-! ### The two markers, and a byte that is no digit (R168, R173, R164) -/

theorem decByte_soi {d : DecUnit} (c : Byte) (phase : d.phase = .soi) :
    decByte c d = if c = 0x7E then { d with phase := .hdr, pos := d.pos + 1 } else decFailed .malformedFrame d := by
  rw [decByte, phase]; rfl

theorem decByte_eoi {d : DecUnit} (c : Byte) (phase : d.phase = .eoi) :
    decByte c d = if c = 0x0D then { d with phase := .ok, pos := d.pos + 1 } else decFailed .malformedFrame d := by
  rw [decByte, phase]; rfl

theorem decByte_of_not_digit {c : Byte} {d : DecUnit} (bad : decodeNibble c = none)
    (phase : d.phase = .hdr ∨ d.phase = .pay ∨ d.phase = .chk) : decByte c d = decFailed .invalidHexDigit d := by
  rcases phase with phase | phase | phase
  · simp only [decByte, phase, decHeader, bad, decTakeError_eq]
  · simp only [decByte, phase, decPayload, bad, decTakeError_eq]
  · simp only [decByte, phase, decChecksum, bad, decTakeError_eq]

/-! ### A header digit and the length evaluation (R169, R170) -/

/-- What a header digit writes, register by register. -/
theorem decHeaderDigit_eq (c : Byte) (v : Nibble) {d : DecUnit} (lower : 1 ≤ d.pos.toNat) :
    decHeaderDigit c v d = { d with
      acc := d.acc + c.setWidth 16
      hi := if d.pos.toNat = 1 ∨ d.pos.toNat = 3 ∨ d.pos.toNat = 5 ∨ d.pos.toNat = 7 then v else d.hi
      ver := if d.pos.toNat = 2 then d.hi ++ v else d.ver
      adr := if d.pos.toNat = 4 then d.hi ++ v else d.adr
      dev := if d.pos.toNat = 6 then d.hi ++ v else d.dev
      fn := if d.pos.toNat = 8 then d.hi ++ v else d.fn
      len := if 9 ≤ d.pos.toNat then d.len.extractLsb' 0 12 ++ v else d.len } := by
  unfold decHeaderDigit
  dsimp only
  split
  case h_9 h1 h3 h5 h7 h2 h4 h6 h8 =>
    simp only [imp_false] at h1 h3 h5 h7 h2 h4 h6 h8
    have past : 9 ≤ d.pos.toNat := by omega
    simp [h1, h3, h5, h7, h2, h4, h6, h8, past, accAdd, shiftInNibble_append]
  all_goals simp_all [accAdd, joinNibbles_append]

theorem decByte_header_digit {c : Byte} {v : Nibble} {d : DecUnit} (digit : decodeNibble c = some v)
    (phase : d.phase = .hdr) (lower : 1 ≤ d.pos.toNat) (upper : d.pos.toNat ≤ 11) :
    decByte c d = { d with
      pos := d.pos + 1
      acc := d.acc + c.setWidth 16
      hi := if d.pos.toNat = 1 ∨ d.pos.toNat = 3 ∨ d.pos.toNat = 5 ∨ d.pos.toNat = 7 then v else d.hi
      ver := if d.pos.toNat = 2 then d.hi ++ v else d.ver
      adr := if d.pos.toNat = 4 then d.hi ++ v else d.adr
      dev := if d.pos.toNat = 6 then d.hi ++ v else d.dev
      fn := if d.pos.toNat = 8 then d.hi ++ v else d.fn
      len := if 9 ≤ d.pos.toNat then d.len.extractLsb' 0 12 ++ v else d.len } := by
  have notLast : d.pos ≠ 12 := by bv_omega
  simp only [decByte, phase, decHeader, digit, if_neg notLast, decHeaderDigit_eq c v lower, decAdvance]

/-- The length evaluation as arithmetic on the length word. -/
theorem decLength_eq (d : DecUnit) :
    decLength d =
      if d.len.toNat / 4096 ≠ nibbleCheck (d.len.toNat % 4096) then decFailed .lengthChecksumMismatch d
      else if d.len.toNat % 2 = 1 then decFailed .malformedFrame d
      else { d with pos := d.pos + 1, phase := if d.len.toNat % 4096 = 0 then .chk else .pay } := by
  have parity : (BitVec.ofNat 12 d.len.toNat).toNat % 2 = d.len.toNat % 2 := by rw [BitVec.toNat_ofNat]; omega
  have zero : BitVec.ofNat 12 d.len.toNat = 0 ↔ d.len.toNat % 4096 = 0 := by
    rw [← BitVec.toNat_inj, BitVec.toNat_ofNat]; rfl
  unfold decLength
  rw [lengthFieldCheck_eq]
  by_cases passes : d.len.toNat / 4096 = nibbleCheck (d.len.toNat % 4096)
  · rw [if_pos passes, if_neg (not_not.mpr passes)]
    simp only [parity, zero, decTakeError_eq, decAdvance]
  · rw [if_neg passes, if_pos passes]; rfl

theorem decByte_header_last {c : Byte} {v : Nibble} {d : DecUnit} (digit : decodeNibble c = some v)
    (phase : d.phase = .hdr) (last : d.pos.toNat = 12) :
    let w : U16 := d.len.extractLsb' 0 12 ++ v
    let t : DecUnit := { d with acc := d.acc + c.setWidth 16, len := w }
    decByte c d =
      if w.toNat / 4096 ≠ nibbleCheck (w.toNat % 4096) then decFailed .lengthChecksumMismatch t
      else if w.toNat % 2 = 1 then decFailed .malformedFrame t
      else { t with pos := 13, phase := if w.toNat % 4096 = 0 then .chk else .pay } := by
  have pos : d.pos = 12 := BitVec.eq_of_toNat_eq last
  have stored : decHeaderDigit c v d =
      { d with acc := d.acc + c.setWidth 16, len := d.len.extractLsb' 0 12 ++ v } := by
    simp [decHeaderDigit_eq c v (show 1 ≤ d.pos.toNat by omega), last]
  have advanced : d.pos + 1 = 13 := by rw [pos]; rfl
  simp only [decByte, phase, decHeader, digit, if_pos pos, stored, decLength_eq, advanced]

/-! ### A payload digit (R171) -/

theorem decN_eq (d : DecUnit) : decN d = d.len.toNat % 4096 := lenid_toNat d.len

/-- `RPBUF` after payload digit `j` with the nibble `v`: the second digit of a pair completes a byte. -/
def rpbufAfterDigit (j : Nat) (v : Nibble) (d : DecUnit) : Memory :=
  if j % 2 = 0 then d.rpbuf else Memory.writeIn Config.rpbufSize d.rpbuf (j / 2) (d.hi ++ v)

theorem read_rpbufAfterDigit {j : Nat} (v : Nibble) (d : DecUnit) (inside : j < 4095) (i : Nat) :
    Memory.read (rpbufAfterDigit j v d) i =
      if j % 2 = 1 ∧ i = j / 2 then some (d.hi ++ v) else Memory.read d.rpbuf i := by
  unfold rpbufAfterDigit
  by_cases first : j % 2 = 0
  · rw [if_pos first, if_neg (by omega)]
  · have cell : j / 2 < Config.rpbufSize := by rw [Config.rpbufSize]; omega
    have second : j % 2 = 1 := by omega
    rw [if_neg first, read_writeIn]
    simp only [cell, second, and_true, true_and, eq_comm (a := i)]

theorem decByte_payload_digit {c : Byte} {v : Nibble} {d : DecUnit} (digit : decodeNibble c = some v)
    (phase : d.phase = .pay) :
    let j := d.pos.toNat - 13
    decByte c d = { d with
      phase := if d.pos.toNat = 12 + d.len.toNat % 4096 then .chk else .pay
      pos := d.pos + 1
      acc := d.acc + c.setWidth 16
      hi := if j % 2 = 0 then v else d.hi
      plen := if j % 2 = 0 then d.plen else BitVec.ofNat 11 (j / 2 + 1)
      rpbuf := rpbufAfterDigit j v d } := by
  simp only [decByte, phase, decPayload, digit, rpbufAfterDigit, ← decN_eq, joinNibbles_append]
  by_cases first : (d.pos.toNat - 13) % 2 = 0
  · simp only [if_pos first]; rfl
  · simp only [if_neg first]; rfl

/-! ### A checksum digit (R172) -/

theorem eq_accResult_iff (w acc : U16) : w = accResult acc ↔ (w.toNat + acc.toNat) % 65536 = 0 := by
  have := w.isLt
  have := acc.isLt
  rw [← BitVec.toNat_inj, accResult_toNat]
  omega

theorem decByte_checksum_digit {c : Byte} {v : Nibble} {d : DecUnit} (digit : decodeNibble c = some v)
    (phase : d.phase = .chk) :
    let w : U16 := d.chk.extractLsb' 0 12 ++ v
    decByte c d =
      if d.pos.toNat ≠ 16 + d.len.toNat % 4096 then { d with chk := w, pos := d.pos + 1 }
      else if (w.toNat + d.acc.toNat) % 65536 = 0 then { d with chk := w, pos := d.pos + 1, phase := .eoi }
      else decFailed .checksumMismatch { d with chk := w } := by
  simp only [decByte, phase, decChecksum, digit, decN_eq, shiftInNibble_append, eq_accResult_iff, ite_not,
    decAdvance, decTakeError_eq]

/-! ### Every byte over a clock edge -/

/-- A digit's value under the statements' name for it. -/
theorem decodeNibble_of_hexValue {c : Byte} {x : Nat} (h : hexValue c = some x) :
    decodeNibble c = some (BitVec.ofNat 4 x) := by
  rw [hexValue_eq, Option.map_eq_some_iff] at h
  obtain ⟨v, hv, rfl⟩ := h
  rw [hv, BitVec.ofNat_toNat, BitVec.setWidth_eq]

theorem decodeNibble_eq_none_of_hexValue {c : Byte} (h : hexValue c = none) : decodeNibble c = none := by
  rwa [hexValue_eq, Option.map_eq_none_iff] at h

theorem decClocked_byte {p : InPorts} (d : DecUnit) (start : p.deStart = false) (ending : p.deInEnd = false)
    (valid : p.deInValid = true) : decClocked p d = decByte p.deInData d := by
  simp [decClocked, start, ending, valid]

/-- Settles O20: over the edge the decoder does `dec_byte` of the byte at the port, and `dec_byte` phase by phase. -/
theorem decoderByteSteps : Obligations.DecoderByteSteps := by
  unfold Obligations.DecoderByteSteps
  intro s p rest hscript hpbuf start ending valid
  obtain ⟨t, hstep, hdec⟩ := step_clock_dec hscript hpbuf
  rw [decClocked_byte _ start ending valid] at hdec
  refine ⟨t, hstep, fun phase => hdec.trans (decByte_soi _ phase), fun phase => hdec.trans (decByte_eoi _ phase),
    fun phase bad => hdec.trans (decByte_of_not_digit (decodeNibble_eq_none_of_hexValue bad) phase),
    fun x hx => ?digit⟩
  have digit := decodeNibble_of_hexValue hx
  refine ⟨fun phase => ⟨fun ⟨lower, upper⟩ => hdec.trans (decByte_header_digit digit phase lower upper),
      fun last => hdec.trans (decByte_header_last digit phase last)⟩,
    fun phase lower upper => ⟨_, hdec.trans (decByte_payload_digit digit phase), read_rpbufAfterDigit _ _ (by omega)⟩,
    fun phase => hdec.trans (decByte_checksum_digit digit phase)⟩

end Sys2Proof.Proofs
end

section
/-! PROOFS. The words of the table as bytes: encoding and decoding are inverse, and the fields of a frame are words
(R74, R83, R84). -/

namespace Sys2Proof.Proofs

open Sys2Proof Sys2Proof.Machine Sys2Proof.Safety Sys2Proof.Laws

/-! ### A word decodes back -/

/-- The round trip holds of every word: no constructor's proof looks at well-formedness. -/
theorem decodeWord_encodeWord (i : Instr) : decodeWord (encodeWord i).1 (encodeWord i).2 = .instr i := by
  cases i with
  | lengthWord k l =>
    obtain ⟨high, low⟩ := lengthWord_fields k l
    simp only [encodeWord, decodeWord, high, low]
  | _ => rfl

/-! ### Bytes that decode are the encoding of what they decode to -/

/-- What `decoded` holds is a word whose place and bytes are these; a rejection holds none. -/
def encodesAs (place : Place) (bytes : List Byte) : Decoded → Bool
  | .instr i => encodeWord i == (place, bytes)
  | .rejected _ => true

theorem encodeWord_of_encodesAs {place : Place} {bytes : List Byte} {i : Instr}
    (h : encodesAs place bytes (.instr i) = true) : encodeWord i = (place, bytes) := by
  simpa [encodesAs] using h

theorem encodesAs_decodeOperation (op : Nibble) :
    encodesAs .operation [op.setWidth 8] (decodeOperation op) = true := by
  revert op; decide

theorem encodesAs_decodeErrorCode (code : Nibble) :
    encodesAs .errorCode [code.setWidth 8] (decodeErrorCode code) = true := by
  revert code; decide

theorem encodesAs_decodeStateCode (code : BitVec 3) :
    encodesAs .stateCode [code.setWidth 8] (decodeStateCode code) = true := by
  revert code; decide

set_option maxRecDepth 20000 in
theorem encodesAs_decodeCharacter (c : Byte) : encodesAs .character [c] (decodeCharacter c) = true := by
  revert c; decide

theorem encodesAs_decodeField (f : Field) (bytes : List Byte) :
    encodesAs (.field f) bytes (decodeField f bytes) = true := by
  unfold decodeField
  split
  case h_1 c | h_9 c =>
    split_ifs with marker
    · simp [encodesAs, encodeWord, marker]
    · rfl
  all_goals simp [encodesAs, encodeWord]

/-- The two bytes of a length word from its fields (R77; log 24). -/
theorem encodesAs_lengthWord (hi lo : Byte) :
    encodesAs .lengthWord [hi, lo] (.instr (.lengthWord (highNibble hi) (lowNibble hi ++ lo))) = true := by
  have high : highNibble hi ++ (lowNibble hi ++ lo).extractLsb' 8 4 = hi := by
    rw [BitVec.extractLsb'_append_eq_left, ← joinNibbles_append, joinNibbles_high_low]
  have low : (lowNibble hi ++ lo).extractLsb' 0 8 = lo := BitVec.extractLsb'_append_eq_right
  simp [encodesAs, encodeWord, high, low]

theorem setWidth_lowNibble (b : Byte) : (lowNibble b).setWidth 8 = b &&& 0x0F := by
  apply BitVec.eq_of_toNat_eq
  rw [BitVec.toNat_setWidth, lowNibble_toNat, BitVec.toNat_and, show (0x0F : Byte).toNat = 2 ^ 4 - 1 from rfl,
    Nat.and_two_pow_sub_one_eq_mod]
  omega

theorem setWidth_stateBits (b : Byte) : (b.extractLsb' 0 3).setWidth 8 = b &&& 0x07 := by
  apply BitVec.eq_of_toNat_eq
  rw [BitVec.toNat_setWidth, BitVec.extractLsb'_toNat, BitVec.toNat_and, show (0x07 : Byte).toNat = 2 ^ 3 - 1 from rfl,
    Nat.and_two_pow_sub_one_eq_mod, Nat.shiftRight_zero]
  omega

/-- The bytes of a word at its place without the bits that play no part (log 24). -/
def maskedBytes : Place → List Byte → List Byte
  | .operation, bytes | .errorCode, bytes => bytes.map (· &&& 0x0F)
  | .stateCode, bytes => bytes.map (· &&& 0x07)
  | .character, bytes | .field _, bytes | .lengthWord, bytes => bytes

theorem encodesAs_decodeWord (place : Place) (bytes : List Byte) :
    encodesAs place (maskedBytes place bytes) (decodeWord place bytes) = true := by
  unfold decodeWord
  split
  case h_1 b =>
    have coded := encodesAs_decodeOperation (lowNibble b)
    rw [setWidth_lowNibble] at coded
    exact coded
  case h_2 c => exact encodesAs_decodeCharacter c
  case h_3 f => exact encodesAs_decodeField f bytes
  case h_4 hi lo => exact encodesAs_lengthWord hi lo
  case h_5 b =>
    have coded := encodesAs_decodeErrorCode (lowNibble b)
    rw [setWidth_lowNibble] at coded
    exact coded
  case h_6 b =>
    have coded := encodesAs_decodeStateCode (b.extractLsb' 0 3)
    rw [setWidth_stateBits] at coded
    exact coded
  case h_7 => rfl

theorem encodeWord_of_decodeWord {place : Place} {bytes : List Byte} {i : Instr}
    (h : decodeWord place bytes = .instr i) : encodeWord i = (place, maskedBytes place bytes) :=
  encodeWord_of_encodesAs (h ▸ encodesAs_decodeWord place bytes)

theorem length_maskedBytes (place : Place) (bytes : List Byte) : (maskedBytes place bytes).length = bytes.length := by
  cases place <;> simp [maskedBytes]

/-- At the places of a single byte a word has one byte. -/
theorem bytes_of_decodeWord_code {place : Place} {bytes : List Byte} {i : Instr} (h : decodeWord place bytes = .instr i)
    (code : place = .operation ∨ place = .errorCode ∨ place = .stateCode) : ∃ b, bytes = [b] := by
  match bytes with
  | [b] => exact ⟨b, rfl⟩
  | [] | _ :: _ :: _ => rcases code with rfl | rfl | rfl <;> cases h

/-- Settles O51: the round trip word by word, and back through the bytes without the bits that play no part. -/
theorem everyWordDecodesBack : Obligations.EveryWordDecodesBack := by
  unfold Obligations.EveryWordDecodesBack
  refine ⟨fun i _ => decodeWord_encodeWord i, decodeWord_encodeWord, fun place bytes i h => ?_⟩
  rw [encodeWord_of_decodeWord h]
  refine ⟨rfl, length_maskedBytes place bytes, fun noOp noErr noState => ?whole, fun code b hb => ?nibble,
    fun code b hb => ?state⟩
  case whole => cases place <;> first | contradiction | rfl
  case nibble =>
    obtain ⟨b', rfl⟩ := bytes_of_decodeWord_code h (code.imp_right .inl)
    obtain rfl := List.mem_singleton.mp hb
    rcases code with rfl | rfl <;> rfl
  case state =>
    obtain ⟨b', rfl⟩ := bytes_of_decodeWord_code h (.inr (.inr code))
    obtain rfl := List.mem_singleton.mp hb
    subst code; rfl

/-- Settles O50: each word's bits, read by the decoder of its place. -/
theorem tableWordsDecode : Obligations.TableWordsDecode := by
  unfold Obligations.TableWordsDecode
  exact ⟨rfl, rfl, rfl, rfl, rfl, rfl, rfl, rfl, rfl, rfl, rfl, rfl, rfl, rfl⟩

/-! ### The fields of a frame (R74) -/

theorem isHex_encodeNibble (n : Nibble) : isHex (encodeNibble n) = true := by simp [isHex]

/-- The word of each field of the frame of these operands. -/
def frameFieldWord (a f : Byte) (p : List Byte) : Field → Instr
  | .soi => .frameSoi
  | .ver => .frameVer (encodeNibble (highNibble Config.version)) (encodeNibble (lowNibble Config.version))
  | .adr => .frameAdr (encodeNibble (highNibble a)) (encodeNibble (lowNibble a))
  | .dev => .frameDev (encodeNibble (highNibble Config.deviceType)) (encodeNibble (lowNibble Config.deviceType))
  | .fn => .frameFn (encodeNibble (highNibble f)) (encodeNibble (lowNibble f))
  | .length =>
    let w := lengthFieldBuild (BitVec.ofNat 12 (2 * p.length))
    .frameLength (encodeNibble (w.extractLsb' 12 4)) (encodeNibble (w.extractLsb' 8 4))
      (encodeNibble (w.extractLsb' 4 4)) (encodeNibble (w.extractLsb' 0 4))
  | .info => .frameInfo (p.flatMap encodeByte)
  | .chksum =>
    let w := frameChecksum (frameBody a f p)
    .frameChksum (encodeNibble (w.extractLsb' 12 4)) (encodeNibble (w.extractLsb' 8 4))
      (encodeNibble (w.extractLsb' 4 4)) (encodeNibble (w.extractLsb' 0 4))
  | .eoi => .frameEoi

theorem all_isHex_flatMap_encodeByte (p : List Byte) : (p.flatMap encodeByte).all isHex = true := by
  simp [List.all_flatMap, encodeByte, isHex_encodeNibble]

theorem wellFormed_frameFieldWord (a f : Byte) {p : List Byte} (hp : p.length ≤ 2047) (fld : Field) :
    wellFormed (frameFieldWord a f p fld) = true := by
  cases fld with
  | soi | eoi => rfl
  | ver | adr | dev | fn | chksum => simp only [frameFieldWord, wellFormed, isHex_encodeNibble, Bool.and_self]
  | length =>
    have even : (BitVec.ofNat 12 (2 * p.length)).toNat % 2 = 0 := by rw [hexlen_toNat hp]; omega
    simp only [frameFieldWord, wellFormed, wellFormedLength, decodeU16_encodeU16, Option.bind_some,
      lengthFieldCheck_build, even, beq_self_eq_true]
  | info =>
    have even : 2 * p.length % 2 = 0 := by omega
    have fits : 2 * p.length ≤ 4094 := by omega
    simp only [frameFieldWord, wellFormed, all_isHex_flatMap_encodeByte, length_flatMap_encodeByte, even, fits,
      beq_self_eq_true, decide_true, Bool.and_self]

theorem drop_frameBytes_eoi (a f : Byte) (p : List Byte) :
    (frameBytes a f p).drop (17 + 2 * p.length) = [Config.eoi] := by
  rw [show 17 + 2 * p.length = 13 + 2 * p.length + 4 by omega, ← List.drop_drop, drop_frameBytes_checksum]
  rfl

/-- Each field stands at its offset (R74). -/
theorem encodeWord_frameFieldWord (a f : Byte) (p : List Byte) (fld : Field) :
    encodeWord (frameFieldWord a f p fld) = (.field fld,
      ((frameBytes a f p).drop (fieldOffset (2 * p.length) fld)).take (fieldWidth (2 * p.length) fld)) := by
  cases fld with
  | soi | ver | adr | dev | fn | length => rfl
  | info =>
    have payload : ((frameBytes a f p).drop 13).take (2 * p.length) = p.flatMap encodeByte := by
      have start := drop_frameBytes a f (Nat.zero_le p.length)
      rw [Nat.mul_zero, Nat.add_zero, List.drop_zero] at start
      rw [start, List.take_left' (length_flatMap_encodeByte p)]
    simp only [frameFieldWord, encodeWord, fieldOffset, fieldWidth, payload]
  | chksum => simp only [frameFieldWord, encodeWord, fieldOffset, fieldWidth, drop_frameBytes_checksum]; rfl
  | eoi => simp only [frameFieldWord, encodeWord, fieldOffset, fieldWidth, drop_frameBytes_eoi]; rfl

/-- Settles O12: the fields of a frame are the words of its operands, each at its offset. -/
theorem frameFieldsAreWords : Obligations.FrameFieldsAreWords := by
  unfold Obligations.FrameFieldsAreWords
  intro a f p frame h fld
  obtain ⟨-, hp, rfl⟩ := encodeFrame_eq_ok_iff.mp h
  exact ⟨frameFieldWord a f p fld, wellFormed_frameFieldWord a f hp fld, encodeWord_frameFieldWord a f p fld,
    decodeWord_encodeWord _⟩

end Sys2Proof.Proofs
end

section
/-! PROOFS. What a step can do: every step is a sequence of moves of single blocks, said once for all the invariants. -/

namespace Sys2Proof.Proofs

open Sys2Proof Sys2Proof.Machine Sys2Proof.Safety Sys2Proof.Laws
open Host (Outcome)
open Relation (ReflTransGen)

/-! ### The moves -/

/-- One move of one block, with what is known where the machine makes it. The states between the moves of a step need be
no states of the machine, but every invariant holds in them too. -/
inductive Move (s : State) : State → Prop
  /-- the accumulator, and all that is the caller's or the model's own: ports, results, script, free values -/
  | caller (acc : U16) (enTaken : List Byte) (ports : InPorts) (result : Option Result) (script : List Stimulus)
      (draws : Nat) :
      Move s { s with
        acc := acc, enTaken := enTaken, ports := ports, result := result, script := script, draws := draws }
  | pbufWrite (i : Nat) (b : Byte) : Move s { s with pbuf := Memory.writeIn Config.pbufSize s.pbuf i b }
  | encSum (sum : U16) : Move s { s with enc := { s.enc with acc := sum } }
  | txnEncSum (sum : U16) : Move s { s with txnEnc := { s.txnEnc with acc := sum } }
  | encStart (a f : Byte) (p : U16) : Move s { s with enc := encStart a f p s.enc }
  | encEmit (emitting : s.enc.phase = .emit) : Move s { s with enc := encEmit (payloadByte s) s.enc }
  | encAbort : Move s { s with enc := encAbort s.enc }
  | decStart : Move s { s with dec := decStart s.dec }
  | decByte (c : Byte) : Move s { s with dec := decByte c s.dec }
  | decEnd : Move s { s with dec := decEnd s.dec }
  /-- bytes arrive, are flushed or are consumed -/
  | chan (c : Channel) : Move s { s with chan := c }
  | start (rest : s.txn.busy = false) : Move s (txnStart s)
  | refused (e : ErrorName) (phase : s.txnEnc.phase = .fail) (err : s.txnEnc.err = some e) : Move s (txnFail e s)
  | failed (e : ErrorName) (allowed : e ≠ .truncatedFrame) : Move s (txnFail e s)
  | put (emitting : s.txnEnc.phase = .emit) (more : s.txnEnc.idx.toNat ≠ 17 + s.txnEnc.hexlen.toNat) :
      Move s (txnPut s)
  | putLast (busy : s.txn.busy = true) (state : s.txn.state = .idle) (emitting : s.txnEnc.phase = .emit)
      (last : s.txnEnc.idx.toNat = 17 + s.txnEnc.hexlen.toNat) :
      Move s ((txnPut s).setTxn { s.txn with state := .sent })
  | writeFailed (t : State) (put : t = s ∨ t = txnPut s) :
      Move s (txnFail .ioError { t with txnEnc := Machine.encAbort t.txnEnc })
  | sent (busy : s.txn.busy = true) (state : s.txn.state = .sent) : Move s (txnSent s)
  | timer (timer : BitVec 32) : Move s (s.setTxn { s.txn with timer := timer })
  | store (b : Byte) (reading : Reading s.txn) : Move s (txnStore s b)
  | timeout : Move s (txnFail .responseTimeout (txnDrain s))
  | header (l : Len12) (busy : s.txn.busy = true) (state : s.txn.state = .awaitingHeader)
      (read : 18 ≤ s.txn.cnt.toNat) (length : headerLength (rxBytes s 18) = .ok l) :
      Move s (s.setTxn { s.txn with n := l, timer := 0, state := .awaitingPayload })
  | txnDecStart : Move s (s.setTxnDec (Machine.decStart s.txnDec))
  | txnDecByte (c : Byte) : Move s (s.setTxnDec (Machine.decByte c s.txnDec))
  | complete (busy : s.txn.busy = true) (state : s.txn.state = .awaitingPayload) (status : Byte) (rplen : BitVec 11)
      (ver radr dev : Byte) (r : Result) :
      Move s ((s.setTxn { s.txn with
        state := .complete, busy := false, status := status, rplen := rplen, ver := ver, radr := radr,
        dev := dev }).setResult r)
  | reset : Move s (resetEdge s)

/-- Any number of moves. -/
abbrev Moves : State → State → Prop := ReflTransGen Move

theorem moves_setResult (s : State) (r : Result) : Moves s (s.setResult r) := .single (.caller ..)

theorem moves_result (s : State) (r : Option Result) : Moves s { s with result := r } := .single (.caller ..)

/-! ### The accumulator, the `PBUF` port and the encoder -/

theorem moves_accRun (s : State) : Moves s (accRun s) := by
  rw [accRun_eq]; exact .single (.caller ..)

theorem moves_accCycle (s : State) : Moves s (accCycle s) := by
  obtain ⟨acc, e⟩ := accCycle_frame s
  rw [e]; exact .single (.caller ..)

theorem moves_pbufLateWrite (s : State) : Moves s (pbufLateWrite s) := by
  have spoiled (r : EncRegs) (i : Nat) : ∃ sum, (if r.phase = .emit ∧ 2 * i < r.hexlen.toNat then
      { r with acc := Config.lateChecksum s.draws } else r) = { r with acc := sum } := by
    split
    · exact ⟨_, rfl⟩
    · exact ⟨r.acc, rfl⟩
  have written : Moves s { s with
      pbuf := if Config.lateWriteLands s.draws then
        Memory.writeIn Config.pbufSize s.pbuf s.ports.pbIdx.toNat s.ports.pbData else s.pbuf } := by
    split
    · exact .single (.pbufWrite ..)
    · exact .refl
  obtain ⟨sum, encSum⟩ := spoiled s.enc s.ports.pbIdx.toNat
  obtain ⟨txnSum, txnEncSum⟩ := spoiled s.txnEnc s.ports.pbIdx.toNat
  simp only [pbufLateWrite, encSum, txnEncSum]
  exact ((written.tail (.encSum sum)).tail (.txnEncSum txnSum)).tail (.caller ..)

theorem moves_pbufCycle {s t : State} (h : pbufCycle s = .next t) : Moves s t := by
  rcases pbufCycle_cases s with ⟨-, e⟩ | ⟨-, -, e⟩ | ⟨-, -, -, e⟩ | ⟨-, -, -, e⟩ <;> cases e.symm.trans h
  · exact .refl
  · exact moves_pbufLateWrite s
  · exact .single (.pbufWrite ..)

theorem moves_encStartStep (s : State) : Moves s (encStartStep s) := by
  unfold encStartStep
  split
  · exact .refl
  · exact .tail (.single (.encStart ..)) (.caller ..)

theorem moves_encEmitStep {s : State} (emitting : s.enc.phase = .emit) : Moves s (encEmitStep s) :=
  .tail (.single (.encEmit emitting)) (.caller ..)

/-- A cycle of the stand-alone encoder before its abort (R145; log 16). -/
def encActed (s : State) : State :=
  if s.ports.enStart ∧ s.enc.phase ≠ .emit then encStartStep s
  else if s.enc.phase = .emit ∧ s.ports.enOutReady then encEmitStep s
  else s

theorem encCycle_eq (s : State) :
    encCycle s = if (encActed s).ports.enAbort then { encActed s with enc := encAbort (encActed s).enc }
      else encActed s := rfl

theorem moves_encActed (s : State) : Moves s (encActed s) := by
  unfold encActed
  split_ifs with start emit
  · exact moves_encStartStep s
  · exact moves_encEmitStep emit.1
  · exact .refl

theorem moves_encCycle (s : State) : Moves s (encCycle s) := by
  rw [encCycle_eq]
  split
  · exact (moves_encActed s).tail .encAbort
  · exact moves_encActed s

theorem moves_encRun (count : Nat) (s : State) : Moves s (encRun count s) := by
  induction count generalizing s with
  | zero => exact .refl
  | succ count ih =>
    unfold encRun
    split
    next emitting => exact (moves_encEmitStep emitting).trans (ih _)
    next => exact .refl

/-! ### The decoders -/

/-- What one byte at a time can do to a decoder, a run can do. -/
theorem decRun_induction {P : DecUnit → Prop} (byte : ∀ c d, P d → P (decByte c d)) (bytes : List Byte) {d : DecUnit}
    (h : P d) : P (decRun bytes d).1 := by
  induction bytes generalizing d with
  | nil => exact h
  | cons c cs ih =>
    cases accepts : decAccepts d.phase with
    | true => rw [decRun_cons_accepting c cs accepts]; exact ih (byte c d h)
    | false => rwa [decRun_at_rest _ accepts]

theorem moves_decRun (bytes : List Byte) (s : State) : Moves s { s with dec := (decRun bytes s.dec).1 } :=
  decRun_induction (P := fun d => Moves s { s with dec := d }) (fun c _ h => h.tail (.decByte c)) bytes .refl

theorem moves_txnDecRun (bytes : List Byte) (s : State) :
    Moves s (s.setTxnDec (decRun bytes (decStart s.txnDec)).1) :=
  decRun_induction (P := fun d => Moves s (s.setTxnDec d)) (fun c _ h => h.tail (.txnDecByte c)) bytes
    (.single .txnDecStart)

theorem moves_decOffer (bytes : List Byte) (s : State) : Moves s (decOffer bytes s) := by
  rw [decOffer_eq]; exact (moves_decRun bytes s).trans (moves_result _ _)

theorem moves_presentCharacter (c : Byte) (s : State) : Moves s (presentCharacter c s) := by
  rw [presentCharacter_eq]; exact .tail (.single (.decByte c)) (.caller ..)

theorem moves_decCycle (s : State) : Moves s (decCycle s) := by
  unfold decCycle
  split
  · exact .single .decStart
  · have byte : Moves s { s with dec :=
        if s.ports.deInValid && decAccepts s.dec.phase then decByte s.ports.deInData s.dec else s.dec } := by
      split
      · exact .single (.decByte _)
      · exact .refl
    dsimp only
    split
    · exact byte.tail .decEnd
    · exact byte

/-! ### The transaction -/

/-- A replay from a start fails with none but the four errors of a byte (R160). -/
theorem decRun_decStart_err (bytes : List Byte) (d : DecUnit) :
    (decRun bytes (decStart d)).1.err ≠ some .truncatedFrame := by
  refine decRun_induction (P := fun d => d.err ≠ some .truncatedFrame) (fun c d h => ?_) bytes (by simp [decStart, decLeaveError])
  rcases decByte_cases c d with ⟨-, same⟩ | ⟨-, -, -, err⟩ | ⟨-, -, -, -, err⟩
  · rwa [same]
  · rcases err with err | err | err | err <;> simp [err]
  · rwa [err]

theorem moves_txnWrite (c : ChanCycle) {s : State} (busy : s.txn.busy = true) (state : s.txn.state = .idle) :
    Moves s (txnWrite c s) := by
  unfold txnWrite
  split
  next phase =>
    split
    next e err => exact .single (.refused e phase err)
    next => exact .refl
  next emitting =>
    have phase : (txnPut s).txnEnc.phase = .done ↔ s.txnEnc.idx.toNat = 17 + s.txnEnc.hexlen.toNat := by
      simp [txnPut, Machine.encEmit, emitting]
    cases ready : c.txReady with
    | true =>
      simp only [if_true]
      split_ifs with failed done
      · exact .single (.writeFailed _ (.inr rfl))
      · exact .single (.putLast busy state emitting (phase.mp done))
      · exact .single (.put emitting (phase.not.mp done))
    | false =>
      simp only [Bool.false_eq_true, if_false]
      split_ifs with failed done
      · exact .single (.writeFailed _ (.inl rfl))
      · exact absurd (emitting.symm.trans done) (by decide)
      · exact .refl
  all_goals exact .refl

theorem moves_txnDeadline (limit : Nat) (c : ChanCycle) (s : State) : Moves s (txnDeadline limit c s) := by
  rcases txnDeadline_cases limit c s with ⟨-, -, e⟩ | ⟨-, ⟨-, -, e⟩ | ⟨-, e⟩⟩ <;> rw [e]
  · exact .single .timeout
  · exact .single (.timer _)

theorem moves_txnRead (limit : Nat) (c : ChanCycle) {s : State} (reading : Reading s.txn) :
    Moves s (txnRead limit c s) := by
  rcases txnRead_cases limit c s with ⟨-, e⟩ | ⟨-, -, e⟩ | ⟨-, b, rest, -, t, rfl, e⟩ <;> rw [e]
  · have drawn : Moves s { s with
        chan := { s.chan with inn := Config.inputAfterIoError s.draws }, draws := s.draws + 1 } :=
      .tail (.single (.chan { s.chan with inn := Config.inputAfterIoError s.draws })) (.caller ..)
    exact drawn.tail (.failed .ioError (by decide))
  · exact moves_txnDeadline limit c s
  · have stored : Moves s (txnStore (s.setChan { s.chan with inn := rest }) b) :=
      .tail (.single (.chan _)) (.store b reading)
    split
    · exact stored
    · exact stored.trans (moves_txnDeadline limit c _)

/-- `headerLength` fails with one of two errors (R194). -/
theorem headerLength_error {h : List Byte} {e : ErrorName} (failed : headerLength h = .error e) :
    e = .invalidHexDigit ∨ e = .lengthChecksumMismatch := by
  unfold headerLength at failed
  split at failed
  · cases failed; exact .inl rfl
  · split at failed <;> cases failed
    exact .inr rfl

theorem moves_txnLength {s : State} (busy : s.txn.busy = true) (state : s.txn.state = .awaitingHeader)
    (read : 18 ≤ s.txn.cnt.toNat) : Moves s (txnLength s) := by
  unfold txnLength
  split
  next e failed => exact .single (.failed e (by rcases headerLength_error failed with rfl | rfl <;> decide))
  next l length => exact .single (.header l busy state read length)

theorem moves_txnDecode {s : State} (busy : s.txn.busy = true) (state : s.txn.state = .awaitingPayload) :
    Moves s (txnDecode s) := by
  have replayed := moves_txnDecRun (rxBytes s (replyLength s.txn)) s
  have noEnd := decRun_decStart_err (rxBytes s (replyLength s.txn)) s.txnDec
  unfold txnDecode
  dsimp only
  generalize (decRun (rxBytes s (replyLength s.txn)) (decStart s.txnDec)).1 = d at replayed noEnd ⊢
  split
  · exact replayed.tail (.complete (s := s.setTxnDec d) busy state ..)
  · split
    next e err => exact replayed.tail (.failed e fun h => noEnd (h ▸ err))
    next => exact replayed
  all_goals exact replayed

theorem moves_txnAdvance (c : ChanCycle) {s : State} (busy : s.txn.busy = true) : Moves s (txnAdvance c s) := by
  unfold txnAdvance
  split
  next state => exact moves_txnWrite c busy state
  next state => exact .single (.sent busy state)
  next state =>
    split
    next more => exact moves_txnRead _ c ⟨busy, .inl ⟨state, more⟩⟩
    next all => exact moves_txnLength busy state (Nat.le_of_not_lt all)
  next state =>
    split
    next more => exact moves_txnRead _ c ⟨busy, .inr ⟨state, more⟩⟩
    next => exact moves_txnDecode busy state
  all_goals exact .refl

theorem moves_txnArrive (s : State) : Moves s (txnArrive s) := .single (.chan _)

theorem moves_txnCycle (s : State) : Moves s (txnCycle s) := by
  rcases txnCycle_cases s with ⟨busy, e⟩ | ⟨rest, -, e⟩ | ⟨-, -, e⟩ <;> rw [e]
  · exact (moves_txnArrive s).trans (moves_txnAdvance _ busy)
  · exact (moves_txnArrive s).tail (.start rest)
  · exact moves_txnArrive s

theorem moves_txnRun (count : Nat) (s : State) : Moves s (txnRun count s) := by
  induction count generalizing s with
  | zero => exact .refl
  | succ count ih =>
    unfold txnRun
    split
    · exact (moves_txnCycle s).trans (ih _)
    · exact .refl

/-! ### The words -/

theorem moves_execEncode {s t : State} (h : execEncode s = .next t) : Moves s t := by
  unfold execEncode at h
  split at h <;> cases h
  · exact .refl
  · exact ((moves_encStartStep s).trans (moves_encRun _ _)).trans (moves_result _ _)

theorem moves_execDecode {s t : State} (h : execDecode s = .next t) : Moves s t := by
  cases h
  exact (((ReflTransGen.single .decStart).trans (moves_decRun s.ports.deBytes _)).tail .decEnd).tail (.caller ..)

theorem moves_execExecute {s t : State} (h : execExecute s = .next t) : Moves s t := by
  unfold execExecute at h
  split at h <;> cases h
  · exact .refl
  next rest => exact ((moves_txnArrive s).tail (.start (show s.txn.busy = false by simpa using rest))).trans (moves_txnRun _ _)

theorem moves_cycleIn (x : TState) (s : State) : Moves s (cycleIn x s) := by
  unfold cycleIn
  split
  · exact moves_txnCycle s
  · exact .refl

theorem moves_raiseInTxn (e : ErrorName) {otherwise s : State} (h : Moves s otherwise) :
    Moves s (raiseInTxn e otherwise s) := by
  unfold raiseInTxn
  split
  · exact moves_txnCycle s
  · exact h

theorem moves_raiseInDec (e : ErrorName) {otherwise s : State} (h : Moves s otherwise) :
    Moves s (raiseInDec e otherwise s) := by
  unfold raiseInDec
  split
  · exact (moves_decCycle s).trans (moves_setResult _ _)
  · exact h

theorem moves_raiseInEnc (e : ErrorName) {otherwise s : State} (h : Moves s otherwise) :
    Moves s (raiseInEnc e otherwise s) := by
  unfold raiseInEnc
  split
  · exact (moves_encCycle s).trans (moves_setResult _ _)
  · exact h

theorem moves_ite_setResult (p : Prop) [Decidable p] (s : State) (r : Result) :
    Moves s (if p then s.setResult r else s) := by
  split
  · exact moves_setResult s r
  · exact .refl

/-- Every word moves the machine by moves of its blocks. -/
theorem moves_exec {i : Instr} {s t : State} (h : exec i s = .next t) : Moves s t := by
  cases i with
  | encode => exact moves_execEncode h
  | decode => exact moves_execDecode h
  | execute => exact moves_execExecute h
  | frameChecksum | frameChecksumVerify => cases h; exact (moves_accRun s).trans (moves_setResult _ _)
  | lengthWord => cases h; exact .tail (.single (.caller ..)) (.caller ..)
  | frameSoi | frameVer | frameAdr | frameDev | frameFn | frameLength | frameInfo | frameChksum | frameEoi =>
    cases h; exact moves_decOffer _ s
  | tStateIdle | tStateSent | tStateAwaitingHeader | tStateAwaitingPayload | tStateComplete | tStateFailed =>
    cases h; exact moves_cycleIn _ s
  | errIoError | errResponseTimeout => cases h; exact moves_raiseInTxn _ .refl
  | errInvalidHexDigit | errLengthChecksumMismatch =>
    cases h; exact moves_raiseInTxn _ (moves_raiseInDec _ (moves_ite_setResult ..))
  | errChecksumMismatch =>
    cases h
    refine moves_raiseInTxn _ (moves_raiseInDec _ ?_)
    split
    · exact .refl
    · exact moves_setResult ..
  | errMalformedFrame => cases h; exact moves_raiseInTxn _ (moves_raiseInDec _ .refl)
  | errInvalidAddress | errPayloadTooLarge => cases h; exact moves_raiseInTxn _ (moves_raiseInEnc _ .refl)
  | errTruncatedFrame => cases h; exact moves_raiseInDec _ .refl
  | encodeNibble | encodeByte | encodeU16 | decodeNibble | decodeByte | decodeU16 | lengthChecksum | lengthFieldBuild
  | lengthFieldCheck => cases h; exact moves_setResult s _
  | _ => cases h; exact moves_presentCharacter _ s

/-! ### A step -/

theorem moves_clockEdge {s t : State} (h : clockEdge s = .next t) : Moves s t := by
  unfold clockEdge at h
  split at h <;> cases h
  next u written =>
    exact ((((moves_pbufCycle written).trans (moves_accCycle u)).trans (moves_encCycle _)).trans
      (moves_decCycle _)).trans (moves_txnCycle _)

theorem moves_receive {place : Place} {bytes : List Byte} {s t : State} (h : receive place bytes s = .next t) :
    Moves s t := by
  rcases receive_cases place bytes s with ⟨-, c, -, e⟩ | ⟨-, e⟩ | ⟨-, -, e⟩ <;> cases e.symm.trans h
  · exact moves_presentCharacter c s
  · exact moves_decOffer bytes s

theorem moves_setScript (s : State) (l : List Stimulus) : Moves s (s.setScript l) := .single (.caller ..)

theorem moves_setPorts (s : State) (p : InPorts) : Moves s (s.setPorts p) := .single (.caller ..)

/-- Every step moves the machine by moves of its blocks. -/
theorem moves_step {s t : State} (h : step s = .next t) : Moves s t := by
  unfold step fetch at h
  cases script : s.script with
  | nil => rw [script] at h; exact moves_clockEdge h
  | cons stimulus rest =>
    have presented := moves_setScript s rest
    have driven (p : InPorts) := presented.trans (moves_setPorts _ p)
    cases stimulus with
    | word place bytes =>
      simp only [script] at h
      cases decoded : decodeWord place bytes with
      | instr i => rw [decoded] at h; exact presented.trans (moves_exec h)
      | rejected why => rw [decoded] at h; exact presented.trans (moves_receive h)
    | drive p => rw [script] at h; cases h; exact driven p
    | clock p => rw [script] at h; exact (driven p).trans (moves_clockEdge h)
    | reset p => rw [script] at h; cases h; exact (driven p).tail .reset

/-- An invariant of every move is one of every step. -/
theorem step_keeps {P : State → Prop} (keeps : ∀ s t, Move s t → P s → P t) {s t : State} (h : P s)
    (stepped : step s = .next t) : P t := by
  have moved := moves_step stepped
  clear stepped
  induction moved with
  | refl => exact h
  | tail _ move ih => exact keeps _ _ move ih

end Sys2Proof.Proofs
end

section
/-! PROOFS. The four invariants, move by move: buffers, errors against phases, positions, and the stored reply. -/

namespace Sys2Proof.Proofs

open Sys2Proof Sys2Proof.Machine Sys2Proof.Safety Sys2Proof.Laws

/-! ### Buffers in canonical form (R19, R41, R42, R43) -/

theorem goodBuffer_nil (size : Nat) : GoodBuffer size [] := ⟨rfl, rfl⟩

theorem goodBuffer_writeIn {size : Nat} {m : Memory} (h : GoodBuffer size m) (i : Nat) (b : Byte) :
    GoodBuffer size (Memory.writeIn size m i b) :=
  ⟨wf_writeIn size m i b h.1, bounded_writeIn size m i b h.2⟩

theorem decHeaderDigit_rpbuf (c : Byte) (v : Nibble) (d : DecUnit) : (decHeaderDigit c v d).rpbuf = d.rpbuf := by
  unfold decHeaderDigit; dsimp only; split <;> rfl

theorem decLength_rpbuf (d : DecUnit) : (decLength d).rpbuf = d.rpbuf ∨ (decLength d).rpbuf = [] := by
  rw [decLength_eq]
  split
  · exact .inr rfl
  · split
    · exact .inr rfl
    · exact .inl rfl

theorem decHeader_rpbuf (c : Byte) (d : DecUnit) : (decHeader c d).rpbuf = d.rpbuf ∨ (decHeader c d).rpbuf = [] := by
  unfold decHeader
  split
  · exact .inr rfl
  next v _ =>
    dsimp only
    rw [← decHeaderDigit_rpbuf c v d]
    split
    · exact decLength_rpbuf _
    · exact .inl rfl

/-- All that a byte can do to `RPBUF`: nothing, one write, or leave no byte a value (R171, R177). -/
theorem decByte_rpbuf (c : Byte) (d : DecUnit) :
    (decByte c d).rpbuf = d.rpbuf ∨ (decByte c d).rpbuf = [] ∨
      ∃ i b, (decByte c d).rpbuf = Memory.writeIn Config.rpbufSize d.rpbuf i b := by
  cases phase : d.phase with
  | idle | ok | fail => exact .inl (by rw [decByte_at_rest c (by rw [phase]; rfl)])
  | soi =>
    rw [decByte_soi c phase]
    split
    · exact .inl rfl
    · exact .inr (.inl rfl)
  | eoi =>
    rw [decByte_eoi c phase]
    split
    · exact .inl rfl
    · exact .inr (.inl rfl)
  | hdr => simp only [decByte, phase]; exact (decHeader_rpbuf c d).imp_right .inl
  | pay =>
    cases digit : decodeNibble c with
    | none => rw [decByte_of_not_digit digit (.inr (.inl phase))]; exact .inr (.inl rfl)
    | some v =>
      rw [decByte_payload_digit digit phase]
      dsimp only [rpbufAfterDigit]
      split
      · exact .inl rfl
      · exact .inr (.inr ⟨_, _, rfl⟩)
  | chk =>
    cases digit : decodeNibble c with
    | none => rw [decByte_of_not_digit digit (.inr (.inr phase))]; exact .inr (.inl rfl)
    | some v =>
      rw [decByte_checksum_digit digit phase]
      split_ifs
      · exact .inl rfl
      · exact .inl rfl
      · exact .inr (.inl rfl)

theorem goodBuffer_decByte (c : Byte) {d : DecUnit} (h : GoodBuffer Config.rpbufSize d.rpbuf) :
    GoodBuffer Config.rpbufSize (decByte c d).rpbuf := by
  rcases decByte_rpbuf c d with e | e | ⟨i, b, e⟩ <;> rw [e]
  · exact h
  · exact goodBuffer_nil _
  · exact goodBuffer_writeIn h i b

theorem goodBuffer_decEnd {d : DecUnit} (h : GoodBuffer Config.rpbufSize d.rpbuf) :
    GoodBuffer Config.rpbufSize (decEnd d).rpbuf := by
  unfold decEnd
  split
  · exact goodBuffer_nil _
  · exact h

theorem goodBuffer_txnDrain {s : State} (h : GoodBuffer Config.rxbufSize s.rxbuf) :
    GoodBuffer Config.rxbufSize (txnDrain s).rxbuf := by
  obtain ⟨m, e, wf, bounded, -⟩ := txnDrain_eq s
  rw [e]; exact ⟨wf h.1, bounded h.2⟩

theorem buffersCanonical_drained {s : State} (h : BuffersCanonical s) : BuffersCanonical (txnDrain s) := by
  obtain ⟨pbuf, rxbuf, dec, txnDec⟩ := h
  have stored := goodBuffer_txnDrain rxbuf
  obtain ⟨m, e, -⟩ := txnDrain_eq s
  rw [e] at stored ⊢
  exact ⟨pbuf, stored, dec, txnDec⟩

theorem buffersCanonical_reset : BuffersCanonical State.reset := ⟨goodBuffer_nil _, goodBuffer_nil _, goodBuffer_nil _, goodBuffer_nil _⟩

theorem buffersCanonical_move {s t : State} (move : Move s t) (h : BuffersCanonical s) : BuffersCanonical t := by
  have ⟨pbuf, rxbuf, dec, txnDec⟩ := h
  cases move with
  | pbufWrite i b => exact ⟨goodBuffer_writeIn pbuf i b, rxbuf, dec, txnDec⟩
  | store b => exact ⟨pbuf, goodBuffer_writeIn rxbuf _ b, dec, txnDec⟩
  | timeout => exact buffersCanonical_drained h
  | decByte c => exact ⟨pbuf, rxbuf, goodBuffer_decByte c dec, txnDec⟩
  | decEnd => exact ⟨pbuf, rxbuf, goodBuffer_decEnd dec, txnDec⟩
  | txnDecByte c => exact ⟨pbuf, rxbuf, dec, goodBuffer_decByte c txnDec⟩
  | writeFailed u put => rcases put with rfl | rfl <;> exact h
  | reset => exact buffersCanonical_reset
  | _ => exact h

/-- Settles O56: a write into a buffer keeps its form and size, and no move does anything else to one but empty it. -/
theorem buffersStayCanonical : Obligations.BuffersStayCanonical := by
  unfold Obligations.BuffersStayCanonical
  exact fun s t h stepped => step_keeps (fun _ _ => buffersCanonical_move) h stepped

/-! ### Error codes against phases, and `t_busy` against `T_STATE` (R17, R199) -/

theorem encErrorMatches_encStart (a f : Byte) (p : U16) (r : EncRegs) : EncErrorMatches (encStart a f p r) := by
  rcases encStart_cases a f p r with ⟨-, e⟩ | ⟨-, -, e⟩ | ⟨-, -, e⟩ <;> rw [e] <;> simp [EncErrorMatches]

theorem encErrorMatches_encEmit (payload : Nat → Byte) {r : EncRegs} (h : EncErrorMatches r)
    (emitting : r.phase = .emit) : EncErrorMatches (encEmit payload r) := by
  have noFail : (encEmit payload r).phase ≠ .fail := by
    simp only [encEmit, emitting]; split <;> decide
  exact ⟨fun fail => absurd fail noFail, fun _ => h.2 (.inl emitting)⟩

theorem encErrorMatches_encAbort (r : EncRegs) : EncErrorMatches (encAbort r) := by simp [EncErrorMatches, encAbort]

theorem decErrorMatches_decStart (d : DecUnit) : DecErrorMatches (decStart d) := by
  simp [DecErrorMatches, decStart, decLeaveError]

theorem decErrorMatches_decByte (c : Byte) {d : DecUnit} (h : DecErrorMatches d) : DecErrorMatches (decByte c d) := by
  rcases decByte_cases c d with ⟨-, same⟩ | ⟨-, fail, -, err⟩ | ⟨accepts, noFail, -, -, err⟩
  · rwa [same]
  · refine ⟨fun _ => ?_, fun noFail => absurd fail noFail⟩
    rcases err with err | err | err | err <;> exact ⟨_, by decide, err⟩
  · exact ⟨fun fail => absurd fail noFail, fun _ => err.trans (h.2 fun fail => by simp [fail, decAccepts] at accepts)⟩

theorem decErrorMatches_decEnd {d : DecUnit} (h : DecErrorMatches d) : DecErrorMatches (decEnd d) := by
  unfold decEnd
  split
  · exact ⟨fun _ => ⟨.truncatedFrame, by decide, rfl⟩, fun noFail => absurd rfl noFail⟩
  · exact h

theorem txnErrorMatches_txnFail {e : ErrorName} (s : State) (allowed : e ≠ .truncatedFrame) :
    TxnErrorMatches (txnFail e s).txn := ⟨fun _ => ⟨e, rfl, allowed⟩, fun noFail => absurd rfl noFail⟩

/-- A transaction that has failed is at rest. -/
theorem busyMatchesState_txnFail (e : ErrorName) (s : State) : BusyMatchesState (txnFail e s) :=
  ⟨nofun, fun _ => .inr (.inr rfl), nofun⟩

/-- The two invariants of O57 together: each needs the other. -/
def ErrorsAndBusyMatch (s : State) : Prop := ErrorsMatchPhases s ∧ BusyMatchesState s

theorem errorsAndBusyMatch_txnFail {e : ErrorName} {s : State} (h : ErrorsMatchPhases s)
    (allowed : e ≠ .truncatedFrame) : ErrorsAndBusyMatch (txnFail e s) := by
  obtain ⟨enc, txnEnc, dec, txnDec, -⟩ := h
  exact ⟨⟨enc, txnEnc, dec, txnDec, txnErrorMatches_txnFail s allowed⟩, busyMatchesState_txnFail e s⟩

theorem errorsMatchPhases_drained {s : State} (h : ErrorsMatchPhases s) : ErrorsMatchPhases (txnDrain s) := by
  obtain ⟨m, e, -⟩ := txnDrain_eq s
  rw [e]; exact h

theorem encStart_phase (a f : Byte) (p : U16) (r : EncRegs) :
    (encStart a f p r).phase = .emit ∨ (encStart a f p r).phase = .fail := by
  rcases encStart_cases a f p r with ⟨-, e⟩ | ⟨-, -, e⟩ | ⟨-, -, e⟩ <;> rw [e]
  · exact .inr rfl
  · exact .inr rfl
  · exact .inl rfl

theorem errorsAndBusyMatch_reset : ErrorsAndBusyMatch State.reset := by
  simp [ErrorsAndBusyMatch, ErrorsMatchPhases, BusyMatchesState, EncErrorMatches, DecErrorMatches, TxnErrorMatches,
    State.reset, EncRegs.atReset, DecUnit.atReset, TxnRegs.atReset]

theorem errorsAndBusyMatch_move {s t : State} (move : Move s t) (h : ErrorsAndBusyMatch s) : ErrorsAndBusyMatch t := by
  have ⟨errors, busyMatch⟩ := h
  have ⟨enc, txnEnc, dec, txnDec, txn⟩ := errors
  cases move with
  | encStart a f p => exact ⟨⟨encErrorMatches_encStart a f p _, txnEnc, dec, txnDec, txn⟩, busyMatch⟩
  | encEmit emitting => exact ⟨⟨encErrorMatches_encEmit _ enc emitting, txnEnc, dec, txnDec, txn⟩, busyMatch⟩
  | encAbort => exact ⟨⟨encErrorMatches_encAbort _, txnEnc, dec, txnDec, txn⟩, busyMatch⟩
  | decStart => exact ⟨⟨enc, txnEnc, decErrorMatches_decStart _, txnDec, txn⟩, busyMatch⟩
  | decByte c => exact ⟨⟨enc, txnEnc, decErrorMatches_decByte c dec, txnDec, txn⟩, busyMatch⟩
  | decEnd => exact ⟨⟨enc, txnEnc, decErrorMatches_decEnd dec, txnDec, txn⟩, busyMatch⟩
  | txnDecStart => exact ⟨⟨enc, txnEnc, dec, decErrorMatches_decStart _, txn⟩, busyMatch⟩
  | txnDecByte c => exact ⟨⟨enc, txnEnc, dec, decErrorMatches_decByte c txnDec, txn⟩, busyMatch⟩
  | start rest =>
    exact ⟨⟨enc, encErrorMatches_encStart .., dec, txnDec, nofun, fun _ => rfl⟩, fun _ => ⟨nofun, nofun⟩, nofun,
      fun _ _ => encStart_phase ..⟩
  | refused e phase err =>
    refine errorsAndBusyMatch_txnFail errors ?_
    rcases txnEnc.1 phase with err' | err' <;> cases err.symm.trans err' <;> decide
  | failed e allowed => exact errorsAndBusyMatch_txnFail errors allowed
  | timeout => exact errorsAndBusyMatch_txnFail (errorsMatchPhases_drained errors) (by decide)
  | put emitting more =>
    have phase : (txnPut s).txnEnc.phase = .emit := (if_neg more).trans emitting
    exact ⟨⟨enc, encErrorMatches_encEmit _ txnEnc emitting, dec, txnDec, txn⟩, busyMatch.1, busyMatch.2.1,
      fun _ _ => .inl phase⟩
  | putLast busy state emitting =>
    have noErr := txn.2 (by rw [state]; decide)
    exact ⟨⟨enc, encErrorMatches_encEmit _ txnEnc emitting, dec, txnDec, nofun, fun _ => noErr⟩,
      fun _ => ⟨nofun, nofun⟩, fun rest => absurd (busy.symm.trans rest) (by decide), nofun⟩
  | writeFailed u put =>
    have aborted : ErrorsMatchPhases { u with txnEnc := encAbort u.txnEnc } := by
      rcases put with rfl | rfl <;> exact ⟨enc, encErrorMatches_encAbort _, dec, txnDec, txn⟩
    exact errorsAndBusyMatch_txnFail aborted (by decide)
  | sent busy state =>
    have noErr := txn.2 (by rw [state]; decide)
    exact ⟨⟨enc, txnEnc, dec, txnDec, nofun, fun _ => noErr⟩, fun _ => ⟨nofun, nofun⟩,
      fun rest => absurd (busy.symm.trans rest) (by decide), nofun⟩
  | header l busy state =>
    have noErr := txn.2 (by rw [state]; decide)
    exact ⟨⟨enc, txnEnc, dec, txnDec, nofun, fun _ => noErr⟩, fun _ => ⟨nofun, nofun⟩,
      fun rest => absurd (busy.symm.trans rest) (by decide), nofun⟩
  | complete busy state =>
    have noErr := txn.2 (by rw [state]; decide)
    exact ⟨⟨enc, txnEnc, dec, txnDec, nofun, fun _ => noErr⟩, nofun, fun _ => .inr (.inl rfl), nofun⟩
  | reset => exact errorsAndBusyMatch_reset
  | _ => exact h

/-- Settles O57: the two invariants as one, move by move. -/
theorem errorsAndPhasesStayMatched : Obligations.ErrorsAndPhasesStayMatched := by
  unfold Obligations.ErrorsAndPhasesStayMatched
  exact fun s t errors busy stepped => step_keeps (fun _ _ => errorsAndBusyMatch_move) ⟨errors, busy⟩ stepped

/-! ### Positions (R11, R166) -/

theorem encInRange_encStart (a f : Byte) (p : U16) (r : EncRegs) : EncInRange (encStart a f p r) := by
  rcases encStart_cases a f p r with ⟨-, e⟩ | ⟨-, -, e⟩ | ⟨-, legal, e⟩ <;> rw [e]
  · exact ⟨nofun, nofun⟩
  · exact ⟨nofun, nofun⟩
  · refine ⟨fun _ => ?_, nofun⟩
    have zero : (0 : Pos).toNat = 0 := rfl
    simp only [BitVec.toNat_ofNat, zero]
    omega

theorem encInRange_encEmit (payload : Nat → Byte) {r : EncRegs} (h : EncInRange r) (emitting : r.phase = .emit) :
    EncInRange (encEmit payload r) := by
  obtain ⟨even, fits, idx⟩ := h.1 emitting
  have next : (r.idx + 1).toNat = r.idx.toNat + 1 := by bv_omega
  by_cases last : r.idx.toNat = 17 + r.hexlen.toNat
  · have phase : (encEmit payload r).phase = .done := if_pos last
    refine ⟨fun emit => absurd (phase.symm.trans emit) (by decide), fun _ => ⟨even, fits, next.trans ?_⟩⟩
    change r.idx.toNat + 1 = 18 + r.hexlen.toNat
    omega
  · have phase : (encEmit payload r).phase = .emit := (if_neg last).trans emitting
    refine ⟨fun _ => ⟨even, fits, next.trans_le ?_⟩, fun done => absurd (phase.symm.trans done) (by decide)⟩
    change r.idx.toNat + 1 ≤ 17 + r.hexlen.toNat
    omega

theorem encInRange_encAbort (r : EncRegs) : EncInRange (encAbort r) := ⟨nofun, nofun⟩

theorem decInRange_decFailed (e : ErrorName) {d : DecUnit} (h : d.pos.toNat ≤ 4112) : DecInRange (decFailed e d) := h

/-- Where a decoder in range stands: never past the last byte of the longest frame. -/
theorem pos_le_of_decInRange {d : DecUnit} (h : DecInRange d) (accepts : decAccepts d.phase = true) :
    d.pos.toNat ≤ 4112 := by
  have := (lenid d.len).isLt
  have bound : decN d < 4096 := this
  unfold DecInRange at h
  rcases (decAccepts_eq_true_iff _).mp accepts with phase | phase | phase | phase | phase <;> simp only [phase] at h
  · omega
  · omega
  · obtain ⟨_, -, upper, -⟩ := h; omega
  · obtain ⟨⟨_, even⟩, -, upper, -⟩ := h; omega
  · obtain ⟨⟨_, even⟩, pos, -⟩ := h; omega

theorem lengthAccepted_of_passes {d : DecUnit} (passes : d.len.toNat / 4096 = nibbleCheck (d.len.toNat % 4096))
    (even : d.len.toNat % 2 ≠ 1) : LengthAccepted d := by
  refine ⟨?_, ?_⟩
  · rw [lengthFieldCheck_eq, if_pos passes, Option.some_inj]
    apply BitVec.eq_of_toNat_eq
    rw [BitVec.toNat_ofNat, lenid_toNat]
  · rw [decN_eq]; omega

theorem decInRange_header_digit {c : Byte} {v : Nibble} {d : DecUnit} (h : DecInRange d) (phase : d.phase = .hdr)
    (digit : decodeNibble c = some v) : DecInRange (decByte c d) := by
  simp only [DecInRange, phase] at h
  obtain ⟨lower, upper, plen⟩ := h
  by_cases last : d.pos.toNat = 12
  · rw [decByte_header_last digit phase last]
    generalize d.len.extractLsb' 0 12 ++ v = w
    by_cases passes : w.toNat / 4096 = nibbleCheck (w.toNat % 4096)
    · rw [if_neg (not_not.mpr passes)]
      by_cases odd : w.toNat % 2 = 1
      · rw [if_pos odd]; exact decInRange_decFailed _ (last.trans_le (by decide))
      · rw [if_neg odd]
        have accepted := lengthAccepted_of_passes (d := { d with len := w }) passes odd
        by_cases zero : w.toNat % 4096 = 0
        · rw [if_pos zero]
          have none : decN { d with len := w } = 0 := (decN_eq _).trans zero
          refine ⟨accepted, ?_, ?_, ?_⟩
          · change 13 + decN { d with len := w } ≤ 13; omega
          · change 13 ≤ 16 + decN { d with len := w }; omega
          · change d.plen.toNat = decN { d with len := w } / 2; omega
        · rw [if_neg zero]
          have some : decN { d with len := w } ≠ 0 := fun h => zero ((decN_eq _).symm.trans h)
          refine ⟨accepted, le_rfl, ?_, ?_⟩
          · change 13 ≤ 12 + decN { d with len := w }; omega
          · change d.plen.toNat = ((13 : Pos).toNat - 13) / 2; rw [plen]; rfl
    · rw [if_pos passes]; exact decInRange_decFailed _ (last.trans_le (by decide))
  · have next : (d.pos + 1).toNat = d.pos.toNat + 1 := by bv_omega
    rw [decByte_header_digit digit phase lower (by omega)]
    simp only [DecInRange, phase, next]
    exact ⟨by omega, by omega, plen⟩

theorem decInRange_payload_digit {c : Byte} {v : Nibble} {d : DecUnit} (h : DecInRange d) (phase : d.phase = .pay)
    (digit : decodeNibble c = some v) : DecInRange (decByte c d) := by
  simp only [DecInRange, phase] at h
  obtain ⟨accepted, lower, upper, plen⟩ := h
  have even : decN d % 2 = 0 := accepted.2
  have bound : decN d < 4096 := (lenid d.len).isLt
  have next : (d.pos + 1).toNat = d.pos.toNat + 1 := by bv_omega
  have counted : (if (d.pos.toNat - 13) % 2 = 0 then d.plen
      else BitVec.ofNat 11 ((d.pos.toNat - 13) / 2 + 1)).toNat = (d.pos.toNat + 1 - 13) / 2 := by
    split
    · omega
    · rw [BitVec.toNat_ofNat]; omega
  rw [decByte_payload_digit digit phase, ← decN_eq]
  by_cases last : d.pos.toNat = 12 + decN d
  · simp only [last, if_true] at counted ⊢
    simp only [DecInRange, next, counted]
    refine ⟨accepted, ?_, ?_, ?_⟩
    · change 13 + decN d ≤ d.pos.toNat + 1; omega
    · change d.pos.toNat + 1 ≤ 16 + decN d; omega
    · change (12 + decN d + 1 - 13) / 2 = decN d / 2; omega
  · simp only [last, if_false]
    simp only [DecInRange, next, counted]
    refine ⟨accepted, by omega, ?_, trivial⟩
    change d.pos.toNat + 1 ≤ 12 + decN d; omega

theorem decInRange_checksum_digit {c : Byte} {v : Nibble} {d : DecUnit} (h : DecInRange d) (phase : d.phase = .chk)
    (digit : decodeNibble c = some v) : DecInRange (decByte c d) := by
  simp only [DecInRange, phase] at h
  obtain ⟨accepted, lower, upper, plen⟩ := h
  have even : decN d % 2 = 0 := accepted.2
  have bound : decN d < 4096 := (lenid d.len).isLt
  have next : (d.pos + 1).toNat = d.pos.toNat + 1 := by bv_omega
  rw [decByte_checksum_digit digit phase, ← decN_eq]
  split_ifs with more good
  · simp only [DecInRange, phase, next]
    refine ⟨accepted, ?_, ?_, plen⟩
    · change 13 + decN d ≤ d.pos.toNat + 1; omega
    · change d.pos.toNat + 1 ≤ 16 + decN d; omega
  · simp only [DecInRange, next]
    refine ⟨accepted, ?_, plen⟩
    change d.pos.toNat + 1 = 17 + decN d; omega
  · exact decInRange_decFailed _ (by simp only; omega)

theorem decInRange_decByte (c : Byte) {d : DecUnit} (h : DecInRange d) : DecInRange (decByte c d) := by
  cases accepts : decAccepts d.phase with
  | false => rwa [decByte_at_rest c accepts]
  | true =>
    have pos := pos_le_of_decInRange h accepts
    cases phase : d.phase with
    | idle | ok | fail => rw [phase] at accepts; cases accepts
    | soi =>
      simp only [DecInRange, phase] at h
      rw [decByte_soi c phase]
      split
      · have next : (d.pos + 1).toNat = 1 := by bv_omega
        simp only [DecInRange, next]
        exact ⟨by decide, by decide, h.2⟩
      · exact decInRange_decFailed _ pos
    | eoi =>
      simp only [DecInRange, phase] at h
      obtain ⟨accepted, stands, plen⟩ := h
      have bound : decN d < 4096 := (lenid d.len).isLt
      rw [decByte_eoi c phase]
      split
      · have next : (d.pos + 1).toNat = 18 + decN d := by bv_omega
        simp only [DecInRange, next]
        exact ⟨accepted, rfl, plen⟩
      · exact decInRange_decFailed _ pos
    | hdr =>
      cases digit : decodeNibble c with
      | none => rw [decByte_of_not_digit digit (.inl phase)]; exact decInRange_decFailed _ pos
      | some v => exact decInRange_header_digit h phase digit
    | pay =>
      cases digit : decodeNibble c with
      | none => rw [decByte_of_not_digit digit (.inr (.inl phase))]; exact decInRange_decFailed _ pos
      | some v => exact decInRange_payload_digit h phase digit
    | chk =>
      cases digit : decodeNibble c with
      | none => rw [decByte_of_not_digit digit (.inr (.inr phase))]; exact decInRange_decFailed _ pos
      | some v => exact decInRange_checksum_digit h phase digit

theorem decInRange_decEnd {d : DecUnit} (h : DecInRange d) : DecInRange (decEnd d) := by
  unfold decEnd
  split
  next accepts => exact decInRange_decFailed _ (pos_le_of_decInRange h accepts)
  next => exact h

theorem decInRange_decStart (d : DecUnit) : DecInRange (decStart d) := ⟨rfl, rfl⟩

theorem positionsInRange_drained {s : State} (h : PositionsInRange s) : PositionsInRange (txnDrain s) := by
  obtain ⟨m, e, -⟩ := txnDrain_eq s
  rw [e]; exact h

theorem positionsInRange_reset : PositionsInRange State.reset := ⟨⟨nofun, nofun⟩, ⟨nofun, nofun⟩, trivial, trivial⟩

theorem positionsInRange_move {s t : State} (move : Move s t) (h : PositionsInRange s) : PositionsInRange t := by
  have ⟨enc, txnEnc, dec, txnDec⟩ := h
  cases move with
  | encStart a f p => exact ⟨encInRange_encStart a f p _, txnEnc, dec, txnDec⟩
  | encEmit emitting => exact ⟨encInRange_encEmit _ enc emitting, txnEnc, dec, txnDec⟩
  | encAbort => exact ⟨encInRange_encAbort _, txnEnc, dec, txnDec⟩
  | decStart => exact ⟨enc, txnEnc, decInRange_decStart _, txnDec⟩
  | decByte c => exact ⟨enc, txnEnc, decInRange_decByte c dec, txnDec⟩
  | decEnd => exact ⟨enc, txnEnc, decInRange_decEnd dec, txnDec⟩
  | txnDecStart => exact ⟨enc, txnEnc, dec, decInRange_decStart _⟩
  | txnDecByte c => exact ⟨enc, txnEnc, dec, decInRange_decByte c txnDec⟩
  | start rest => exact ⟨enc, encInRange_encStart .., dec, txnDec⟩
  | put emitting more => exact ⟨enc, encInRange_encEmit _ txnEnc emitting, dec, txnDec⟩
  | putLast busy state emitting => exact ⟨enc, encInRange_encEmit _ txnEnc emitting, dec, txnDec⟩
  | writeFailed u put => rcases put with rfl | rfl <;> exact ⟨enc, encInRange_encAbort _, dec, txnDec⟩
  | timeout => exact positionsInRange_drained h
  | reset => exact positionsInRange_reset
  | _ => exact h

/-- Settles O58: a start puts a position at its beginning, and a byte moves it on as its phase says. -/
theorem positionsStayInRange : Obligations.PositionsStayInRange := by
  unfold Obligations.PositionsStayInRange
  exact fun s t h stepped => step_keeps (fun _ _ => positionsInRange_move) h stepped

/-! ### The stored reply (R42, R194) -/

/-- Outside the read states nothing is claimed. -/
theorem replyStored_of_not_reading {s : State} (header : s.txn.state ≠ .awaitingHeader)
    (payload : s.txn.state ≠ .awaitingPayload) : ReplyStored s :=
  ⟨fun state => absurd state header, fun state => absurd state payload⟩

theorem replyStored_txnFail (e : ErrorName) (s : State) : ReplyStored (txnFail e s) :=
  replyStored_of_not_reading nofun nofun

/-- The bytes below `count` are read off the buffer. -/
theorem memory_bytes_congr {buffer epoch : Nat} {m m' : Memory} {count : Nat}
    (h : ∀ k < count, Memory.read m' k = Memory.read m k) :
    Memory.bytes buffer epoch m' count = Memory.bytes buffer epoch m count :=
  List.map_congr_left fun k hk => by rw [Memory.valueAt, h k (List.mem_range.mp hk)]; rfl

theorem read_txnStore {s : State} (b : Byte) (room : s.txn.cnt.toNat < Config.rxbufSize) (k : Nat) :
    Memory.read (txnStore s b).rxbuf k = if k = s.txn.cnt.toNat then some b else Memory.read s.rxbuf k := by
  refine (read_writeIn ..).trans ?_
  simp only [room, and_true, eq_comm (a := k)]

theorem cnt_txnStore {s : State} (b : Byte) (room : s.txn.cnt.toNat < Config.rxbufSize) :
    (txnStore s b).txn.cnt.toNat = s.txn.cnt.toNat + 1 := by
  rw [Config.rxbufSize] at room
  change (s.txn.cnt + 1).toNat = _
  bv_omega

/-- A byte stored next keeps the stored ones and joins them. -/
theorem stored_txnStore {s : State} (b : Byte) (room : s.txn.cnt.toNat < Config.rxbufSize)
    (stored : ∀ k < s.txn.cnt.toNat, (Memory.read s.rxbuf k).isSome = true) :
    ∀ k < (txnStore s b).txn.cnt.toNat, (Memory.read (txnStore s b).rxbuf k).isSome = true := by
  intro k hk
  rw [cnt_txnStore b room] at hk
  rw [read_txnStore b room]
  split
  · rfl
  · exact stored k (by omega)

/-- A reading transaction stores inside `RXBUF` (R42). -/
theorem cnt_lt_of_reading {s : State} (reading : Reading s.txn) : s.txn.cnt.toNat < Config.rxbufSize := by
  have := s.txn.n.isLt
  rw [Config.rxbufSize]
  rcases reading with ⟨-, ⟨-, h⟩ | ⟨-, h⟩⟩ <;> omega

theorem replyStored_txnStore {s : State} (b : Byte) (reading : Reading s.txn) (h : ReplyStored s) :
    ReplyStored (txnStore s b) := by
  have room := cnt_lt_of_reading reading
  have cnt := cnt_txnStore b room
  obtain ⟨-, ⟨state, more⟩ | ⟨state, more⟩⟩ := reading
  · obtain ⟨-, stored⟩ := h.1 state
    refine ⟨fun _ => ⟨by omega, stored_txnStore b room stored⟩, fun payload => ?_⟩
    exact absurd (state.symm.trans payload) (by decide)
  · obtain ⟨lower, -, stored, length⟩ := h.2 state
    refine ⟨fun header => absurd (state.symm.trans header) (by decide), fun _ =>
      ⟨by omega, ?_, stored_txnStore b room stored, ?_⟩⟩
    · rw [cnt]; exact more
    · have same : rxBytes (txnStore s b) 18 = rxBytes s 18 :=
        memory_bytes_congr fun k hk => by rw [read_txnStore b room, if_neg (by omega)]
      rw [same]; exact length

theorem replyStored_reset : ReplyStored State.reset := replyStored_of_not_reading nofun nofun

theorem replyStored_move {s t : State} (move : Move s t) (h : ReplyStored s) : ReplyStored t := by
  cases move with
  | start | putLast | complete => exact replyStored_of_not_reading nofun nofun
  | refused | failed | timeout | writeFailed => exact replyStored_txnFail ..
  | sent => exact ⟨fun _ => ⟨Nat.zero_le _, nofun⟩, nofun⟩
  | store b reading => exact replyStored_txnStore b reading h
  | header l busy state read length =>
    obtain ⟨upper, stored⟩ := h.1 state
    exact ⟨nofun, fun _ => ⟨read, upper.trans (Nat.le_add_right ..), stored, length⟩⟩
  | reset => exact replyStored_of_not_reading nofun nofun
  | _ => exact h

/-- Settles O59: the header read begins with nothing counted, a byte is counted where it is stored, and `T_N` is taken from
the stored header. -/
theorem replyStaysStored : Obligations.ReplyStaysStored := by
  unfold Obligations.ReplyStaysStored
  exact fun s t h stepped => step_keeps (fun _ _ => replyStored_move) h stepped

/-- Settles O60: right after reset the buffers are empty and every block is at rest. -/
theorem invariantsHoldAtReset : Obligations.InvariantsHoldAtReset := by
  unfold Obligations.InvariantsHoldAtReset
  obtain ⟨errors, busy⟩ := errorsAndBusyMatch_reset
  exact ⟨buffersCanonical_reset, errors, busy, positionsInRange_reset, replyStored_reset⟩

end Sys2Proof.Proofs
end

section
/-! PROOFS. The words as kinds: what each kind runs, what it leaves alone, and where a step stops (log 1, log 3). -/

namespace Sys2Proof.Proofs

open Sys2Proof Sys2Proof.Machine Sys2Proof.Safety Sys2Proof.Laws

/-! ### What the words of a kind run -/

theorem exec_stateWord (x : TState) (s : State) : exec (stateWord x) s = .next (cycleIn x s) := by cases x <;> rfl

theorem exec_own_stateWord (s : State) : exec (stateWord s.txn.state) s = .next (txnCycle s) := by
  rw [exec_stateWord, cycleIn, if_pos rfl]

/-- A field's word offers its bytes (log 1). -/
theorem exec_field {i : Instr} {f : Field} (h : (encodeWord i).1 = .field f) (s : State) :
    exec i s = .next (decOffer (encodeWord i).2 s) := by
  cases i <;> first | rfl | cases h

/-- A character's word presents its byte, whose nibble the table gives (R70, R71). -/
theorem exec_hexRow {i : Instr} {c : Byte} {v : Nibble} (row : (i, c, v) ∈ hexRows) :
    decodeNibble c = some v ∧ ∀ s, exec i s = .next (presentCharacter c s) := by
  simp only [hexRows, List.mem_cons, Prod.mk.injEq, List.not_mem_nil, or_false] at row
  rcases row with ⟨rfl, rfl, rfl⟩ | ⟨rfl, rfl, rfl⟩ | ⟨rfl, rfl, rfl⟩ | ⟨rfl, rfl, rfl⟩ | ⟨rfl, rfl, rfl⟩ |
    ⟨rfl, rfl, rfl⟩ | ⟨rfl, rfl, rfl⟩ | ⟨rfl, rfl, rfl⟩ | ⟨rfl, rfl, rfl⟩ | ⟨rfl, rfl, rfl⟩ | ⟨rfl, rfl, rfl⟩ |
    ⟨rfl, rfl, rfl⟩ | ⟨rfl, rfl, rfl⟩ | ⟨rfl, rfl, rfl⟩ | ⟨rfl, rfl, rfl⟩ | ⟨rfl, rfl, rfl⟩ | ⟨rfl, rfl, rfl⟩ |
    ⟨rfl, rfl, rfl⟩ | ⟨rfl, rfl, rfl⟩ | ⟨rfl, rfl, rfl⟩ | ⟨rfl, rfl, rfl⟩ | ⟨rfl, rfl, rfl⟩ <;>
    exact ⟨rfl, fun _ => rfl⟩

/-- A character's word: the byte is the decoder's, the nibble is the result. -/
theorem exec_hexRow_eq {i : Instr} {c : Byte} {v : Nibble} (row : (i, c, v) ∈ hexRows) (s : State) :
    exec i s = .next { s with dec := decByte c s.dec, result := some (.ok (.nibble v)) } := by
  obtain ⟨digit, run⟩ := exec_hexRow row
  rw [run, presentCharacter_eq, digit]

/-- The four kinds of words: of the stand-alone blocks, error codes, state codes, and `execute`. -/
theorem instr_kinds (i : Instr) :
    StandAlone i ∨ (∃ e, i = errorWord e) ∨ (∃ x, i = stateWord x) ∨ i = .execute := by
  cases i with
  | errIoError => exact .inr (.inl ⟨.ioError, rfl⟩)
  | errResponseTimeout => exact .inr (.inl ⟨.responseTimeout, rfl⟩)
  | errInvalidHexDigit => exact .inr (.inl ⟨.invalidHexDigit, rfl⟩)
  | errLengthChecksumMismatch => exact .inr (.inl ⟨.lengthChecksumMismatch, rfl⟩)
  | errChecksumMismatch => exact .inr (.inl ⟨.checksumMismatch, rfl⟩)
  | errMalformedFrame => exact .inr (.inl ⟨.malformedFrame, rfl⟩)
  | errInvalidAddress => exact .inr (.inl ⟨.invalidAddress, rfl⟩)
  | errPayloadTooLarge => exact .inr (.inl ⟨.payloadTooLarge, rfl⟩)
  | errTruncatedFrame => exact .inr (.inl ⟨.truncatedFrame, rfl⟩)
  | tStateIdle => exact .inr (.inr (.inl ⟨.idle, rfl⟩))
  | tStateSent => exact .inr (.inr (.inl ⟨.sent, rfl⟩))
  | tStateAwaitingHeader => exact .inr (.inr (.inl ⟨.awaitingHeader, rfl⟩))
  | tStateAwaitingPayload => exact .inr (.inr (.inl ⟨.awaitingPayload, rfl⟩))
  | tStateComplete => exact .inr (.inr (.inl ⟨.complete, rfl⟩))
  | tStateFailed => exact .inr (.inr (.inl ⟨.failed, rfl⟩))
  | execute => exact .inr (.inr (.inr rfl))
  | _ => exact .inl ⟨nofun, nofun, nofun⟩

/-! ### What the words of a kind leave alone (R22, R40, log 7) -/

/-- `t` differs from `s` in the stand-alone blocks, the caller's ports and the result alone. -/
def StandAloneChange (s t : State) : Prop :=
  ∃ acc enc enTaken dec ports result,
    t = { s with acc := acc, enc := enc, enTaken := enTaken, dec := dec, ports := ports, result := result }

theorem StandAloneChange.refl (s : State) : StandAloneChange s s := ⟨_, _, _, _, _, _, rfl⟩

theorem StandAloneChange.trans {s t u : State} (h : StandAloneChange s t) (k : StandAloneChange t u) :
    StandAloneChange s u := by
  obtain ⟨_, _, _, _, _, _, rfl⟩ := h
  obtain ⟨_, _, _, _, _, _, rfl⟩ := k
  exact ⟨_, _, _, _, _, _, rfl⟩

theorem standAloneChange_setResult (s : State) (r : Result) : StandAloneChange s (s.setResult r) :=
  ⟨_, _, _, _, _, _, rfl⟩

theorem standAloneChange_accRun (s : State) : StandAloneChange s (accRun s) := by
  rw [accRun_eq]; exact ⟨_, _, _, _, _, _, rfl⟩

theorem standAloneChange_decOffer (bytes : List Byte) (s : State) : StandAloneChange s (decOffer bytes s) := by
  rw [decOffer_eq]; exact ⟨_, _, _, _, _, _, rfl⟩

theorem standAloneChange_presentCharacter (c : Byte) (s : State) : StandAloneChange s (presentCharacter c s) := by
  rw [presentCharacter_eq]; exact ⟨_, _, _, _, _, _, rfl⟩

theorem standAloneChange_encStartStep (s : State) : StandAloneChange s (encStartStep s) := by
  unfold encStartStep
  split
  · exact .refl s
  · exact ⟨_, _, _, _, _, _, rfl⟩

theorem standAloneChange_encEmitStep (s : State) : StandAloneChange s (encEmitStep s) := ⟨_, _, _, _, _, _, rfl⟩

theorem standAloneChange_encRun (count : Nat) (s : State) : StandAloneChange s (encRun count s) := by
  induction count generalizing s with
  | zero => exact .refl s
  | succ count ih =>
    unfold encRun
    split
    · exact (standAloneChange_encEmitStep s).trans (ih _)
    · exact .refl s

theorem standAloneChange_execEncode {s t : State} (h : execEncode s = .next t) : StandAloneChange s t := by
  unfold execEncode at h
  split at h <;> cases h
  · exact .refl s
  · exact ((standAloneChange_encStartStep s).trans (standAloneChange_encRun _ _)).trans ⟨_, _, _, _, _, _, rfl⟩

theorem standAloneChange_decCycle (s : State) : StandAloneChange s (decCycle s) := by
  obtain ⟨d, e⟩ := decCycle_frame s
  rw [e]; exact ⟨_, _, _, _, _, _, rfl⟩

theorem standAloneChange_encCycle (s : State) : StandAloneChange s (encCycle s) := by
  obtain ⟨r, taken, e⟩ := encCycle_frame s
  rw [e]; exact ⟨_, _, _, _, _, _, rfl⟩

theorem standAloneChange_exec {i : Instr} {s t : State} (alone : StandAlone i) (h : exec i s = .next t) :
    StandAloneChange s t := by
  obtain ⟨notError, notState, notExecute⟩ := alone
  cases i with
  | encode => exact standAloneChange_execEncode h
  | decode | lengthWord => cases h; exact ⟨_, _, _, _, _, _, rfl⟩
  | frameChecksum | frameChecksumVerify =>
    cases h; exact (standAloneChange_accRun s).trans (standAloneChange_setResult _ _)
  | frameSoi | frameVer | frameAdr | frameDev | frameFn | frameLength | frameInfo | frameChksum | frameEoi =>
    cases h; exact standAloneChange_decOffer _ s
  | encodeNibble | encodeByte | encodeU16 | decodeNibble | decodeByte | decodeU16 | lengthChecksum | lengthFieldBuild
  | lengthFieldCheck => cases h; exact standAloneChange_setResult s _
  | execute => exact absurd rfl notExecute
  | errIoError | errResponseTimeout | errInvalidHexDigit | errLengthChecksumMismatch | errChecksumMismatch
  | errMalformedFrame | errInvalidAddress | errPayloadTooLarge | errTruncatedFrame => exact absurd rfl notError
  | tStateIdle | tStateSent | tStateAwaitingHeader | tStateAwaitingPayload | tStateComplete | tStateFailed =>
    exact absurd rfl notState
  | _ => cases h; exact standAloneChange_presentCharacter _ s

theorem txnKeeps_execExecute {s t : State} (h : execExecute s = .next t) : TxnKeeps s t := by
  unfold execExecute at h
  split at h <;> cases h
  · exact .refl s
  · exact ((txnArrive_keeps s).trans (txnStart_keeps _)).trans (txnRun_keeps _ _)

theorem txnKeeps_cycleIn (x : TState) (s : State) : TxnKeeps s (cycleIn x s) := by
  unfold cycleIn
  split
  · exact txnCycle_keeps s
  · exact .refl s

/-- An error's word is a cycle of the transaction, or it stays outside it. -/
theorem exec_errorWord_change {e : ErrorName} {s t : State} (h : exec (errorWord e) s = .next t) :
    t = txnCycle s ∨ StandAloneChange s t := by
  have inTxn (e : ErrorName) {otherwise : State} (k : StandAloneChange s otherwise) :
      raiseInTxn e otherwise s = txnCycle s ∨ StandAloneChange s (raiseInTxn e otherwise s) := by
    unfold raiseInTxn
    split
    · exact .inl rfl
    · exact .inr k
  have inDec (e : ErrorName) {otherwise : State} (k : StandAloneChange s otherwise) :
      StandAloneChange s (raiseInDec e otherwise s) := by
    unfold raiseInDec
    split
    · exact (standAloneChange_decCycle s).trans (standAloneChange_setResult _ _)
    · exact k
  have inEnc (e : ErrorName) : StandAloneChange s (raiseInEnc e s s) := by
    unfold raiseInEnc
    split
    · exact (standAloneChange_encCycle s).trans (standAloneChange_setResult _ _)
    · exact .refl s
  cases e <;> cases h
  case ioError | responseTimeout => exact inTxn _ (.refl s)
  case malformedFrame => exact inTxn _ (inDec _ (.refl s))
  case invalidAddress | payloadTooLarge => exact inTxn _ (inEnc _)
  case truncatedFrame => exact .inr (inDec _ (.refl s))
  case invalidHexDigit | lengthChecksumMismatch =>
    refine inTxn _ (inDec _ ?_)
    split
    · exact standAloneChange_setResult s _
    · exact .refl s
  case checksumMismatch =>
    refine inTxn _ (inDec _ ?_)
    split
    · exact .refl s
    · exact standAloneChange_setResult s _

/-- What `PBUF`, the script, the epoch and `ch.out` see of a change of the stand-alone blocks: nothing. -/
theorem StandAloneChange.untouched {s t : State} (h : StandAloneChange s t) :
    t.pbuf = s.pbuf ∧ t.script = s.script ∧ t.epoch = s.epoch ∧ s.chan.out <+: t.chan.out := by
  obtain ⟨_, _, _, _, _, _, rfl⟩ := h
  exact ⟨rfl, rfl, rfl, List.prefix_rfl⟩

theorem untouched_of_txnKeeps {s t : State} (h : TxnKeeps s t) :
    t.pbuf = s.pbuf ∧ t.script = s.script ∧ t.epoch = s.epoch ∧ s.chan.out <+: t.chan.out := by
  obtain ⟨-, -, -, -, pbuf, -, script, epoch, out⟩ := h
  exact ⟨pbuf, script, epoch, out⟩

theorem txnKeeps_of_state_or_execute {i : Instr} {s t : State} (h : exec i s = .next t)
    (kind : (∃ x, i = stateWord x) ∨ i = .execute) : TxnKeeps s t := by
  rcases kind with ⟨x, rfl⟩ | rfl
  · rw [exec_stateWord] at h; cases h; exact txnKeeps_cycleIn x s
  · exact txnKeeps_execExecute h

/-- Settles O55: kind by kind, from what each kind can change. -/
theorem wordsStayInTheirBlocks : Obligations.WordsStayInTheirBlocks := by
  unfold Obligations.WordsStayInTheirBlocks
  refine fun i s t h => ⟨?everyWord, fun alone => ?standAlone, fun kind => ?transaction⟩
  case everyWord =>
    rcases instr_kinds i with alone | ⟨e, rfl⟩ | kind
    · exact (standAloneChange_exec alone h).untouched
    · rcases exec_errorWord_change h with rfl | change
      · exact untouched_of_txnKeeps (txnCycle_keeps s)
      · exact change.untouched
    · exact untouched_of_txnKeeps (txnKeeps_of_state_or_execute h kind)
  case standAlone =>
    obtain ⟨_, _, _, _, _, _, rfl⟩ := standAloneChange_exec alone h
    exact ⟨rfl, rfl, rfl, rfl, rfl, rfl⟩
  case transaction =>
    have kept : TxnKeeps s t := by
      rcases instr_kinds i with ⟨-, notState, notExecute⟩ | ⟨e, rfl⟩ | kind'
      · rcases kind with state | rfl
        · exact absurd state notState
        · exact absurd rfl notExecute
      · rcases kind with state | execute <;> cases e <;> contradiction
      · exact txnKeeps_of_state_or_execute h kind'
    obtain ⟨acc, enc, enTaken, dec, -, ports, -⟩ := kept
    exact ⟨acc, enc, enTaken, dec, ports⟩

/-! ### Where a step stops (R83, R41) -/

theorem exists_exec_eq_next (i : Instr) (s : State) : ∃ t, exec i s = .next t := by
  cases i with
  | encode => simp only [exec, execEncode]; split <;> exact ⟨_, rfl⟩
  | execute => simp only [exec, execExecute]; split <;> exact ⟨_, rfl⟩
  | _ => exact ⟨_, rfl⟩

theorem exec_ne_fault (i : Instr) (s : State) (f : Fault) : exec i s ≠ .fault f := by
  obtain ⟨t, e⟩ := exists_exec_eq_next i s
  rw [e]; nofun

theorem exec_ne_refused (i : Instr) (s : State) (r : Refusal) : exec i s ≠ .refused r := by
  obtain ⟨t, e⟩ := exists_exec_eq_next i s
  rw [e]; nofun

/-- The one clock edge that stops, and no other (log 14). -/
theorem clockEdge_cases (s : State) :
    (s.ports.pbWe = true ∧ s.ports.pbIdx.toNat = 2047 ∧ clockEdge s = .fault .noSuchPbufIndex) ∨
    ((s.ports.pbWe = false ∨ s.ports.pbIdx.toNat < 2047) ∧ ∃ t, clockEdge s = .next t) := by
  unfold clockEdge
  rcases pbufCycle_cases s with ⟨quiet, e⟩ | ⟨write, missing, e⟩ | ⟨-, inside, -, e⟩ | ⟨-, inside, -, e⟩ <;>
    simp only [e]
  · exact .inr ⟨.inl quiet, _, rfl⟩
  · exact .inl ⟨write, missing, trivial⟩
  · exact .inr ⟨.inr inside, _, rfl⟩
  · exact .inr ⟨.inr inside, _, rfl⟩

theorem clockEdge_eq_fault_iff {s : State} {f : Fault} :
    clockEdge s = .fault f ↔ f = .noSuchPbufIndex ∧ s.ports.pbWe = true ∧ s.ports.pbIdx.toNat = 2047 := by
  rcases clockEdge_cases s with ⟨write, missing, e⟩ | ⟨fine, t, e⟩ <;> rw [e]
  · simp [write, missing]
  · constructor
    · nofun
    · rintro ⟨-, write, missing⟩
      rcases fine with quiet | inside
      · simp [quiet] at write
      · omega

theorem clockEdge_ne_refused (s : State) (r : Refusal) : clockEdge s ≠ .refused r := by
  rcases clockEdge_cases s with ⟨-, -, e⟩ | ⟨-, t, e⟩ <;> rw [e] <;> nofun

theorem receive_ne_fault (place : Place) (bytes : List Byte) (s : State) (f : Fault) :
    receive place bytes s ≠ .fault f := by
  rcases receive_cases place bytes s with ⟨-, c, -, e⟩ | ⟨-, e⟩ | ⟨-, -, e⟩ <;> rw [e] <;> nofun

theorem receive_eq_refused_iff {place : Place} {bytes : List Byte} {s : State} {r : Refusal} :
    receive place bytes s = .refused r ↔ r = .noSuchWord ∧ place ≠ .character ∧ ∀ f, place ≠ .field f := by
  rcases receive_cases place bytes s with ⟨rfl, c, -, e⟩ | ⟨place, e⟩ | ⟨notChar, notField, e⟩ <;> rw [e]
  · simp
  · rcases place with rfl | ⟨f, rfl⟩ <;> simp
  · simpa [notChar, eq_comm (a := r)] using fun _ => notField

theorem step_word {s : State} {place : Place} {bytes : List Byte} {rest : List Stimulus} {i : Instr}
    (script : s.script = .word place bytes :: rest) (decoded : decodeWord place bytes = .instr i) :
    step s = exec i (s.setScript rest) := by
  simp only [step, fetch, script, decoded]

theorem step_received {s : State} {place : Place} {bytes : List Byte} {rest : List Stimulus} {why : Reject}
    (script : s.script = .word place bytes :: rest) (decoded : decodeWord place bytes = .rejected why) :
    step s = receive place bytes (s.setScript rest) := by
  simp only [step, fetch, script, decoded]

theorem step_drive {s : State} {p : InPorts} {rest : List Stimulus} (script : s.script = .drive p :: rest) :
    step s = .next ((s.setScript rest).setPorts p) := by
  simp only [step, fetch, script]

theorem step_idle {s : State} (script : s.script = []) : step s = clockEdge s := by
  simp only [step, fetch, script]

theorem step_eq_fault_iff (s : State) (f : Fault) :
    step s = .fault f ↔ f = .noSuchPbufIndex ∧
      ∃ p, (s.script = [] ∧ p = s.ports ∨ ∃ rest, s.script = .clock p :: rest) ∧ p.pbWe = true ∧
        p.pbIdx.toNat = 2047 := by
  cases script : s.script with
  | nil => rw [step_idle script, clockEdge_eq_fault_iff]; simp
  | cons stimulus rest =>
    cases stimulus with
    | word place bytes =>
      cases decoded : decodeWord place bytes with
      | instr i => rw [step_word script decoded]; simp [exec_ne_fault]
      | rejected why => rw [step_received script decoded]; simp [receive_ne_fault]
    | drive p => rw [step_drive script]; simp
    | clock p => rw [step_clockEdge script, clockEdge_eq_fault_iff]; simp
    | reset p => rw [step_reset script]; simp

theorem step_eq_refused_iff (s : State) (r : Refusal) :
    step s = .refused r ↔ r = .noSuchWord ∧ ∃ place bytes rest why, s.script = .word place bytes :: rest ∧
      decodeWord place bytes = .rejected why ∧ place ≠ .character ∧ ∀ f, place ≠ .field f := by
  cases script : s.script with
  | nil => rw [step_idle script]; simp [clockEdge_ne_refused]
  | cons stimulus rest =>
    cases stimulus with
    | word place bytes =>
      cases decoded : decodeWord place bytes with
      | instr i => rw [step_word script decoded]; simp [exec_ne_refused, decoded]
      | rejected why => rw [step_received script decoded, receive_eq_refused_iff]; simp [decoded]
    | drive p => rw [step_drive script]; simp
    | clock p => rw [step_clockEdge script]; simp [clockEdge_ne_refused]
    | reset p => rw [step_reset script]; simp

/-- Settles O49: every word answers a next state, and what else a step can run stops in one place each. -/
theorem stepStopsOnlyWhereNothingExists : Obligations.StepStopsOnlyWhereNothingExists := by
  unfold Obligations.StepStopsOnlyWhereNothingExists
  exact ⟨exists_exec_eq_next, step_eq_fault_iff, step_eq_refused_iff⟩

/-! ### What a step runs (R83; log 1, log 4) -/

set_option maxRecDepth 20000 in
theorem decodeCharacter_of_not_digit (c : Byte) :
    decodeNibble c = none → decodeCharacter c = .rejected .notInAlphabet := by
  revert c; decide

/-- Settles O47: by what the next stimulus is. -/
theorem stepRunsTheDecodedWord : Obligations.StepRunsTheDecodedWord := by
  unfold Obligations.StepRunsTheDecodedWord
  refine ⟨fun s place bytes rest i script decoded => step_word script decoded,
    fun s i rest _ script => step_word script (decodeWord_encodeWord i),
    fun s c rest script bad => ?character, fun s place bytes rest why script decoded received => ?received,
    fun s script => step_held s script, fun s p rest script => step_drive script⟩
  case character =>
    have notDigit := decodeNibble_eq_none_of_hexValue bad
    rw [step_received script (decodeCharacter_of_not_digit c notDigit)]
    change Host.Outcome.next (presentCharacter c (s.setScript rest)) = _
    rw [presentCharacter_eq, notDigit]
    rfl
  case received =>
    rw [step_received script decoded]
    rcases receive_cases place bytes (s.setScript rest) with ⟨rfl, c, rfl, -⟩ | ⟨-, e⟩ | ⟨notChar, notField, -⟩
    · rcases received with ⟨-, long⟩ | ⟨f, field⟩
      · exact absurd rfl long
      · cases field
    · exact e
    · rcases received with ⟨char, -⟩ | ⟨f, field⟩
      · exact absurd char notChar
      · exact absurd field (notField f)

/-! ### The length word, and a decoder at rest (log 1) -/

theorem lengthWord_passes_iff (k : Nibble) (l : Len12) :
    (lengthWordOf k l).toNat / 4096 = nibbleCheck ((lengthWordOf k l).toNat % 4096) ↔
      (k.toNat + l.toNat / 256 + l.toNat / 16 % 16 + l.toNat % 16) % 16 = 0 := by
  have top : (4096 * k.toNat + l.toNat) / 4096 = k.toNat := by omega
  have low : (4096 * k.toNat + l.toNat) % 4096 = l.toNat := by omega
  rw [lengthWordOf_toNat, top, low, nibbleCheck]
  omega

/-- Settles O5: the word at the port is the number its fields make, and passes by its nibble sum. -/
theorem lengthWordIsChecked : Obligations.LengthWordIsChecked := by
  unfold Obligations.LengthWordIsChecked
  intro k l s
  have word : BitVec.ofNat 16 (4096 * k.toNat + l.toNat) = lengthWordOf k l := by
    rw [← lengthWordOf_toNat, BitVec.ofNat_toNat, BitVec.setWidth_eq]
  have length : BitVec.ofNat 12 (lengthWordOf k l).toNat = l := by
    apply BitVec.eq_of_toNat_eq
    rw [lengthWordOf_toNat, BitVec.toNat_ofNat]
    omega
  have checked : resultOf .lengthChecksumMismatch .len12 (lengthFieldCheck (lengthWordOf k l)) =
      if (k.toNat + l.toNat / 256 + l.toNat / 16 % 16 + l.toNat % 16) % 16 = 0 then .ok (.len12 l)
      else .err .lengthChecksumMismatch := by
    rw [resultOf_lengthFieldCheck, length]
    exact if_congr (lengthWord_passes_iff k l) rfl rfl
  rw [word, ← checked]
  rfl

/-- Settles O21: bytes offered to a decoder at rest change nothing. -/
theorem decoderAtRestTakesNothing : Obligations.DecoderAtRestTakesNothing := by
  unfold Obligations.DecoderAtRestTakesNothing
  intro s phase
  have rest := (decAccepts_eq_false_iff _).mpr phase
  refine ⟨fun row member => ?_, fun i f field => ?_⟩
  · rw [exec_hexRow_eq member, decByte_at_rest _ rest]
  · rw [exec_field field, decOffer_at_rest _ s rest]

/-- Settles O36: another state's word is no cycle, and a cycle at rest only lets bytes arrive. -/
theorem stateWordsAtRest : Obligations.StateWordsAtRest := by
  unfold Obligations.StateWordsAtRest
  refine fun s x => ⟨fun other => ?other, ?rest, ?ended⟩
  case other => rw [exec_stateWord, cycleIn, if_neg (Ne.symm other)]
  case rest =>
    rintro rfl rest quiet
    rw [exec_own_stateWord]
    rcases txnCycle_cases s with ⟨busy, -⟩ | ⟨-, start, -⟩ | ⟨-, -, e⟩
    · simp [rest] at busy
    · simp [quiet] at start
    · rw [e]; rfl
  case ended =>
    rintro rfl busy ended
    rw [exec_own_stateWord]
    rcases txnCycle_cases s with ⟨-, e⟩ | ⟨rest, -⟩ | ⟨rest, -⟩
    · have held : txnAdvance (nextCycle s.chan).1 (txnArrive s) = txnArrive s := by
        have same : (txnArrive s).txn = s.txn := rfl
        rcases ended with state | state <;> simp only [txnAdvance, same, state]
      rw [e, held]; rfl
    all_goals simp [rest] at busy

end Sys2Proof.Proofs
end

section
/-! PROOFS. A clock edge: the caller's `PBUF` port, the transaction's share, and the stand-alone encoder's (R22, R145, R199,
R266). -/

namespace Sys2Proof.Proofs

open Sys2Proof Sys2Proof.Machine Sys2Proof.Safety Sys2Proof.Laws

/-! ### The edge as the cycles of its blocks -/

theorem clockEdge_of_pbufCycle {s u : State} (h : pbufCycle s = .next u) :
    clockEdge s = .next (txnCycle (decCycle (encCycle (accCycle u)))) := by simp only [clockEdge, h]

theorem step_clock_of_pbufCycle {s u : State} {p : InPorts} {rest : List Stimulus}
    (script : s.script = .clock p :: rest) (h : pbufCycle ((s.setScript rest).setPorts p) = .next u) :
    step s = .next (txnCycle (decCycle (encCycle (accCycle u)))) :=
  (step_clockEdge script).trans (clockEdge_of_pbufCycle h)

/-! ### The `PBUF` port (R41, R266) -/

/-- No block's own cycle writes `PBUF`. -/
theorem pbuf_of_cycles (s : State) : (txnCycle (decCycle (encCycle (accCycle s)))).pbuf = s.pbuf := by
  obtain ⟨acc, acced⟩ := accCycle_frame s
  obtain ⟨enc, taken, encoded⟩ := encCycle_frame (accCycle s)
  obtain ⟨dec, decoded⟩ := decCycle_frame (encCycle (accCycle s))
  obtain ⟨-, -, -, -, pbuf, -⟩ := txnCycle_keeps (decCycle (encCycle (accCycle s)))
  rw [pbuf, decoded, encoded, acced]

theorem read_pbufLateWrite (s : State) (k : Nat) :
    Memory.read (pbufLateWrite s).pbuf k = Memory.read s.pbuf k ∨
      (k = s.ports.pbIdx.toNat ∧ Memory.read (pbufLateWrite s).pbuf k = some s.ports.pbData) := by
  simp only [pbufLateWrite]
  split
  · rw [read_writeIn]
    split
    next here => exact .inr ⟨here.1.symm, rfl⟩
    next => exact .inl rfl
  · exact .inl rfl

theorem pbufHeld_eq_true_iff (s : State) : pbufHeld s = true ↔ s.txn.busy = true ∨ s.enc.phase = .emit := by
  simp [pbufHeld]

/-- Settles O52: the port's outcomes, and that no block's cycle writes `PBUF` after it. -/
theorem pbufWritePort : Obligations.PbufWritePort := by
  unfold Obligations.PbufWritePort
  intro s p rest script write
  rcases pbufCycle_cases ((s.setScript rest).setPorts p) with ⟨quiet, -⟩ | ⟨-, missing, e⟩ | ⟨-, inside, held, e⟩ |
    ⟨-, inside, free, e⟩
  · exact absurd (write.symm.trans quiet) (by decide)
  · have missing : p.pbIdx.toNat = 2047 := missing
    refine ⟨fun inside => by omega, fun inside => by omega, fun _ => ?_⟩
    rw [step_clockEdge script, clockEdge_eq_fault_iff]
    exact ⟨rfl, write, missing⟩
  · have inside' : p.pbIdx.toNat < 2047 := inside
    have read := read_pbufLateWrite ((s.setScript rest).setPorts p)
    refine ⟨fun _ rest notEmit => ?_, fun _ _ => ⟨_, step_clock_of_pbufCycle script e, ?_, fun k other => ?_⟩,
      fun missing => by omega⟩
    · rcases (pbufHeld_eq_true_iff _).mp held with busy | emit
      · exact absurd (busy.symm.trans rest) (by decide)
      · exact absurd emit notEmit
    · rw [pbuf_of_cycles]
      exact (read p.pbIdx.toNat).symm.imp_left And.right
    · rw [pbuf_of_cycles]
      exact (read k).resolve_right fun here => other here.1
  · have inside' : p.pbIdx.toNat < 2047 := inside
    refine ⟨fun _ _ _ => ⟨_, step_clock_of_pbufCycle script e, fun k => ?_⟩, fun _ held => ?_, fun missing => by omega⟩
    · rw [pbuf_of_cycles]
      change Memory.read (Memory.writeIn 2047 s.pbuf p.pbIdx.toNat p.pbData) k = _
      simp only [read_writeIn, inside', and_true, eq_comm (a := k)]
    · have := (pbufHeld_eq_true_iff ((s.setScript rest).setPorts p)).mpr held
      exact absurd (this.symm.trans free) (by decide)

/-! ### The transaction does not look at the stand-alone blocks (log 7) -/

/-- `s` with other contents in the stand-alone blocks. -/
def beside (acc : U16) (enc : EncRegs) (enTaken : List Byte) (dec : DecUnit) (s : State) : State :=
  { s with acc := acc, enc := enc, enTaken := enTaken, dec := dec }

section
variable (acc : U16) (enc : EncRegs) (enTaken : List Byte) (dec : DecUnit)

theorem txnFail_beside (e : ErrorName) (s : State) :
    txnFail e (beside acc enc enTaken dec s) = beside acc enc enTaken dec (txnFail e s) := rfl

theorem txnWrite_beside (c : ChanCycle) (s : State) :
    txnWrite c (beside acc enc enTaken dec s) = beside acc enc enTaken dec (txnWrite c s) := by
  have inner : (beside acc enc enTaken dec s).txnEnc = s.txnEnc := rfl
  unfold txnWrite
  rw [inner]
  split
  · split <;> rfl
  · cases c.txReady <;> cases c.txErr <;> simp only [Bool.false_eq_true, if_true, if_false]
    case false.false | true.false => split <;> split <;> first | rfl | contradiction
    all_goals rfl
  all_goals rfl

theorem foldl_txnStore_beside (bytes : List Byte) (s : State) :
    bytes.foldl txnStore (beside acc enc enTaken dec s) = beside acc enc enTaken dec (bytes.foldl txnStore s) := by
  induction bytes generalizing s with
  | nil => rfl
  | cons b bs ih => exact ih (txnStore s b)

theorem txnDrain_beside (s : State) :
    txnDrain (beside acc enc enTaken dec s) = beside acc enc enTaken dec (txnDrain s) :=
  congrArg (fun t : State => t.setChan { s.chan with inn := [] }) (foldl_txnStore_beside acc enc enTaken dec _ s)

theorem txnDeadline_beside (limit : Nat) (c : ChanCycle) (s : State) :
    txnDeadline limit c (beside acc enc enTaken dec s) = beside acc enc enTaken dec (txnDeadline limit c s) := by
  have same : (beside acc enc enTaken dec s).txn = s.txn ∧ (beside acc enc enTaken dec s).chan = s.chan := ⟨rfl, rfl⟩
  unfold txnDeadline
  rw [same.1, same.2]
  split
  · rw [txnDrain_beside, txnFail_beside]
  · split <;> rfl

theorem txnRead_beside (limit : Nat) (c : ChanCycle) (s : State) :
    txnRead limit c (beside acc enc enTaken dec s) = beside acc enc enTaken dec (txnRead limit c s) := by
  have same : (beside acc enc enTaken dec s).chan = s.chan := rfl
  unfold txnRead
  rw [same]
  split
  · rfl
  · split
    · exact txnDeadline_beside ..
    next b rest _ =>
      have stored : txnStore ((beside acc enc enTaken dec s).setChan { s.chan with inn := rest }) b =
          beside acc enc enTaken dec (txnStore (s.setChan { s.chan with inn := rest }) b) := rfl
      dsimp only
      rw [stored]
      generalize txnStore (s.setChan { s.chan with inn := rest }) b = t
      have cnt : (beside acc enc enTaken dec t).txn = t.txn := rfl
      rw [cnt]
      split
      · rfl
      · exact txnDeadline_beside ..

theorem txnLength_beside (s : State) :
    txnLength (beside acc enc enTaken dec s) = beside acc enc enTaken dec (txnLength s) := by
  have same : rxBytes (beside acc enc enTaken dec s) = rxBytes s := rfl
  unfold txnLength
  rw [same]
  split <;> rfl

theorem txnDecode_beside (s : State) :
    txnDecode (beside acc enc enTaken dec s) = beside acc enc enTaken dec (txnDecode s) := by
  have same : rxBytes (beside acc enc enTaken dec s) = rxBytes s := rfl
  have inner : (beside acc enc enTaken dec s).txnDec = s.txnDec ∧ (beside acc enc enTaken dec s).txn = s.txn :=
    ⟨rfl, rfl⟩
  unfold txnDecode
  rw [same, inner.1, inner.2]
  dsimp only
  split
  · rfl
  · split <;> rfl
  all_goals rfl

theorem txnAdvance_beside (c : ChanCycle) (s : State) :
    txnAdvance c (beside acc enc enTaken dec s) = beside acc enc enTaken dec (txnAdvance c s) := by
  have same : (beside acc enc enTaken dec s).txn = s.txn := rfl
  unfold txnAdvance
  rw [same]
  split
  · exact txnWrite_beside ..
  · rfl
  · split
    · exact txnRead_beside ..
    · exact txnLength_beside ..
  · split
    · exact txnRead_beside ..
    · exact txnDecode_beside ..
  all_goals rfl

theorem txnCycle_beside (s : State) :
    txnCycle (beside acc enc enTaken dec s) = beside acc enc enTaken dec (txnCycle s) := by
  rcases txnCycle_cases s with ⟨busy, e⟩ | ⟨rest, start, e⟩ | ⟨rest, start, e⟩ <;>
    rcases txnCycle_cases (beside acc enc enTaken dec s) with ⟨busy', e'⟩ | ⟨rest', start', e'⟩ | ⟨rest', start', e'⟩
  case inl.inl => rw [e, e']; exact txnAdvance_beside acc enc enTaken dec (nextCycle s.chan).1 (txnArrive s)
  case inr.inl.inr.inl | inr.inr.inr.inr => rw [e, e']; rfl
  case inl.inr.inl | inl.inr.inr => exact absurd (busy.symm.trans rest') (by decide)
  case inr.inl.inl | inr.inr.inl => exact absurd (rest.symm.trans busy') (by decide)
  case inr.inl.inr.inr => exact absurd (start.symm.trans start') (by decide)
  case inr.inr.inr.inl => exact absurd (start.symm.trans start') (by decide)

end

/-- The cycles of the stand-alone blocks, seen from the transaction. -/
theorem exists_beside_of_cycles (s : State) :
    ∃ acc enc enTaken dec, decCycle (encCycle (accCycle s)) = beside acc enc enTaken dec s := by
  obtain ⟨acc, acced⟩ := accCycle_frame s
  obtain ⟨enc, taken, encoded⟩ := encCycle_frame (accCycle s)
  obtain ⟨dec, decoded⟩ := decCycle_frame (encCycle (accCycle s))
  exact ⟨acc, enc, taken, dec, by rw [decoded, encoded, acced]; rfl⟩

/-! ### The transaction's share of an edge (R22, R199) -/

/-- A late write spoils at most the sum of the inner encoder, and that only where the byte is one of its frame's (R266). -/
theorem txnEnc_pbufLateWrite (s : State) :
    ∃ sum, (pbufLateWrite s).txnEnc = { s.txnEnc with acc := sum } ∧
      (s.txnEnc.phase ≠ .emit ∨ s.txnEnc.hexlen.toNat ≤ 2 * s.ports.pbIdx.toNat → sum = s.txnEnc.acc) := by
  by_cases spoiled : s.txnEnc.phase = .emit ∧ 2 * s.ports.pbIdx.toNat < s.txnEnc.hexlen.toNat
  · refine ⟨Config.lateChecksum s.draws, if_pos spoiled, fun spared => ?_⟩
    rcases spared with notEmit | outside
    · exact absurd spoiled.1 notEmit
    · omega
  · exact ⟨s.txnEnc.acc, if_neg spoiled, fun _ => rfl⟩

/-- What the `PBUF` port leaves for the transaction's cycle: where it may spoil the inner encoder's sum, and where not. -/
theorem pbufCycle_txn {s : State} (fine : s.ports.pbWe = false ∨ s.ports.pbIdx.toNat < 2047) :
    ∃ pbuf enc sum draws,
      pbufCycle s =
        .next { s with pbuf := pbuf, enc := enc, txnEnc := { s.txnEnc with acc := sum }, draws := draws } ∧
      (s.ports.pbWe = false → pbuf = s.pbuf ∧ draws = s.draws) ∧
      (s.ports.pbWe = false ∨ pbufHeld s = false ∨ s.txnEnc.phase ≠ .emit ∨
        s.txnEnc.hexlen.toNat ≤ 2 * s.ports.pbIdx.toNat → sum = s.txnEnc.acc) := by
  rcases pbufCycle_cases s with ⟨-, e⟩ | ⟨write, missing, -⟩ | ⟨write, -, held, e⟩ | ⟨write, -, -, e⟩
  · exact ⟨s.pbuf, s.enc, s.txnEnc.acc, s.draws, e, fun _ => ⟨rfl, rfl⟩, fun _ => rfl⟩
  · rcases fine with quiet | inside
    · exact absurd (write.symm.trans quiet) (by decide)
    · omega
  · obtain ⟨sum, spoilt, spared⟩ := txnEnc_pbufLateWrite s
    refine ⟨(pbufLateWrite s).pbuf, (pbufLateWrite s).enc, sum, s.draws + 1, e.trans ?_, fun quiet => ?_, fun h => ?_⟩
    · rw [← spoilt]; rfl
    · exact absurd (write.symm.trans quiet) (by decide)
    · rcases h with quiet | free | outside
      · exact absurd (write.symm.trans quiet) (by decide)
      · exact absurd (held.symm.trans free) (by decide)
      · exact spared outside
  · exact ⟨_, s.enc, s.txnEnc.acc, s.draws, e, fun quiet => absurd (write.symm.trans quiet) (by decide), fun _ => rfl⟩

/-- Settles O48: the edge is the port, the stand-alone blocks and the transaction's cycle, which does not look at the
stand-alone blocks. -/
theorem clockEdgeMovesTheTransaction : Obligations.ClockEdgeMovesTheTransaction := by
  unfold Obligations.ClockEdgeMovesTheTransaction
  intro s p rest script fine
  obtain ⟨pbuf, enc, sum, draws, port, untouched, spared⟩ :=
    pbufCycle_txn (s := (s.setScript rest).setPorts p) fine
  have edge := step_clock_of_pbufCycle script port
  obtain ⟨acc, enc', enTaken, dec, besides⟩ := exists_beside_of_cycles
    { (s.setScript rest).setPorts p with
      pbuf := pbuf, enc := enc, txnEnc := { s.txnEnc with acc := sum }, draws := draws }
  generalize seen : ({ s with
    script := rest, ports := p, pbuf := pbuf, txnEnc := { s.txnEnc with acc := sum }, draws := draws } : State) = v
  have viewed : decCycle (encCycle (accCycle { (s.setScript rest).setPorts p with
      pbuf := pbuf, enc := enc, txnEnc := { s.txnEnc with acc := sum }, draws := draws })) =
      beside acc enc' enTaken dec v := by rw [besides, ← seen]; rfl
  rw [show ((s.setScript rest).setPorts p).txnEnc = s.txnEnc from rfl, viewed, txnCycle_beside] at edge
  obtain ⟨-, -, -, -, keptPbuf, keptPorts, keptScript, keptEpoch, -⟩ := txnCycle_keeps v
  have written : (beside acc enc' enTaken dec (txnCycle v)).pbuf = pbuf := keptPbuf.trans (by rw [← seen])
  have word : exec (stateWord s.txn.state) v = .next (txnCycle v) := by
    rw [show s.txn.state = v.txn.state by rw [← seen], exec_own_stateWord]
  refine ⟨_, txnCycle v, sum, draws, edge, ?_, rfl, rfl, rfl, rfl, rfl, rfl, rfl, ?_, ?_, ?_, fun quiet => ?_,
    fun quiet => spared ?_⟩
  · rw [written, seen]; exact word
  · exact keptScript.trans (by rw [← seen])
  · exact keptPorts.trans (by rw [← seen])
  · exact keptEpoch.trans (by rw [← seen])
  · rw [written]; exact untouched quiet
  · refine quiet.imp_right (Or.imp_left fun ⟨rest, notEmit⟩ => ?_)
    rw [← Bool.not_eq_true, pbufHeld_eq_true_iff]
    rintro (busy | emit)
    · exact absurd (busy.symm.trans rest) (by decide)
    · exact notEmit emit

/-! ### The stand-alone encoder over an edge (R145) -/

theorem encCycle_congr_enc (s : State) (acc : U16) :
    (encCycle { s with acc := acc }).enc = (encCycle s).enc ∧
      (encCycle { s with acc := acc }).enTaken = (encCycle s).enTaken := by
  unfold encCycle encStartStep encEmitStep
  dsimp only
  split_ifs <;> exact ⟨rfl, rfl⟩

/-- A cycle of the stand-alone encoder, case by case (R145; log 16). -/
theorem encCycle_spec (s : State) :
    (s.ports.enAbort = true → (encCycle s).enc.phase = .idle) ∧
    (s.ports.enAbort = false → s.enc.phase ≠ .emit → s.ports.enStart = true →
      (encCycle s).enc = encStarted s.ports.enAddr s.ports.enFn s.ports.enPlen s.enc ∧ (encCycle s).enTaken = []) ∧
    (s.ports.enAbort = false → s.enc.phase ≠ .emit → s.ports.enStart = false → encCycle s = s) ∧
    (s.ports.enAbort = false → s.enc.phase = .emit → s.ports.enOutReady = true →
      (encCycle s).enc = encEmitted (encOffered s s.enc) s.enc ∧
        (encCycle s).enTaken = s.enTaken ++ [encOffered s s.enc]) ∧
    (s.ports.enAbort = false → s.enc.phase = .emit → s.ports.enOutReady = false → encCycle s = s) := by
  have ports : (encActed s).ports = s.ports := by
    unfold encActed encStartStep encEmitStep
    split_ifs <;> rfl
  rw [encCycle_eq, ports]
  refine ⟨fun abort => ?_, fun noAbort notEmit start => ?_, fun noAbort notEmit noStart => ?_,
    fun noAbort emit ready => ?_, fun noAbort emit notReady => ?_⟩
  · rw [if_pos abort]; rfl
  · simp [noAbort, encActed, encStartStep, start, notEmit, encStart_eq]
  · simp [noAbort, encActed, noStart, notEmit]
  · simp [noAbort, encActed, ready, emit, encEmitStep, encEmit_eq, encData_eq]
  · simp [noAbort, encActed, notReady, emit]

/-- Settles O13: the edge gives the stand-alone encoder its own cycle. -/
theorem encoderClockCycle : Obligations.EncoderClockCycle := by
  unfold Obligations.EncoderClockCycle
  intro s p rest script quiet
  obtain ⟨acc, acced⟩ := accCycle_frame { s with script := rest, ports := p }
  refine ⟨_, step_clock s p rest script quiet, ?_⟩
  rw [acced]
  generalize seen : ({ s with script := rest, ports := p } : State) = v
  obtain ⟨-, enc, enTaken, -⟩ := txnCycle_keeps (decCycle (encCycle { v with acc := acc }))
  obtain ⟨dec, decoded⟩ := decCycle_frame (encCycle { v with acc := acc })
  obtain ⟨sameEnc, sameTaken⟩ := encCycle_congr_enc v acc
  rw [enc, enTaken, decoded, sameEnc, sameTaken]
  have spec := encCycle_spec v
  subst seen
  obtain ⟨abort, start, rest, emit, wait⟩ := spec
  refine ⟨abort, start, fun noAbort notEmit noStart => ?_, emit, fun noAbort emitting notReady => ?_⟩
  · rw [rest noAbort notEmit noStart]; exact ⟨rfl, rfl⟩
  · rw [wait noAbort emitting notReady]; exact ⟨rfl, rfl⟩

end Sys2Proof.Proofs
end

section
/-! PROOFS. The output ports of the three frame blocks (R146, R176, R205, R231). -/

namespace Sys2Proof.Proofs

open Sys2Proof Sys2Proof.Machine Sys2Proof.Safety Sys2Proof.Laws

theorem errPort_toNat_le (e : Option ErrorName) : (errPort e).toNat ≤ 9 := by
  rcases e with _ | e
  · decide
  · cases e <;> decide

/-! ### The encoder (R146) -/

theorem encOutputs_pbIdx {payload : Nat → Byte} {r : EncRegs} (upper : r.idx.toNat ≤ 12 + r.hexlen.toNat) :
    (encOutputs payload r).pbIdx.toNat = (r.idx.toNat - 13) / 2 := by
  have := r.hexlen.isLt
  change (BitVec.ofNat 11 ((r.idx.toNat - 13) / 2)).toNat = _
  rw [BitVec.toNat_ofNat]
  omega

theorem encOutputs_flags (payload : Nat → Byte) (r : EncRegs) :
    ((encOutputs payload r).outValid = true ↔ r.phase = .emit) ∧
    ((encOutputs payload r).outLast = true ↔ r.phase = .emit ∧ r.idx.toNat = 17 + r.hexlen.toNat) ∧
    ((encOutputs payload r).done = true ↔ r.phase = .done ∨ r.phase = .fail) ∧
    ((encOutputs payload r).ok = true ↔ r.phase = .done) := by
  simp [encOutputs]

/-! ### The decoder (R176, R177) -/

theorem decOutputs_flags (start valid : Bool) (c : Byte) (d : DecUnit) :
    ((decOutputs start valid c d).inReady = true ↔ d.phase ≠ .idle ∧ d.phase ≠ .ok ∧ d.phase ≠ .fail) ∧
    ((decOutputs start valid c d).ok = true ↔ d.phase = .ok) ∧
    ((decOutputs start valid c d).done = true ↔ d.phase = .ok ∨ d.phase = .fail) := by
  refine ⟨?_, by simp [decOutputs], by simp [decOutputs]⟩
  rw [inReady_eq]
  cases d.phase <;> simp [decAccepts]

/-- The results are gated by `de_ok`. -/
theorem decOutputs_results (start valid : Bool) (c : Byte) (d : DecUnit) :
    let o := decOutputs start valid c d
    (o.ok = false → o.status = 0 ∧ o.ver = 0 ∧ o.adr = 0 ∧ o.dev = 0 ∧ o.plen = 0) ∧
    (o.ok = true → o.status = d.fn ∧ o.ver = d.ver ∧ o.adr = d.adr ∧ o.dev = d.dev ∧ o.plen = d.plen) := by
  refine ⟨fun low => ?_, fun high => ?_⟩
  · have gate : (d.phase == .ok) = false := low
    simp only [decOutputs, gate, Bool.false_eq_true, if_false, and_self]
  · have gate : (d.phase == .ok) = true := high
    simp only [decOutputs, gate, if_true, and_self]

/-- No byte that is offered now writes `RPBUF`, but the second digit of a pair of the payload (R171). -/
theorem decOutputs_pbWrite_eq_none {start valid : Bool} {c : Byte} {d : DecUnit}
    (h : valid = false ∨ start = true ∨ d.phase ≠ .pay ∨ hexValue c = none ∨ (d.pos.toNat - 13) % 2 = 0) :
    (decOutputs start valid c d).pbWrite = none := by
  have quiet (h : decWritePort c d = none) : (decOutputs start valid c d).pbWrite = none := by
    simp [decOutputs, h]
  rcases h with rfl | rfl | phase | bad | first
  · rfl
  · simp [decOutputs]
  · refine quiet ?_
    unfold decWritePort
    split
    next pay _ => exact absurd pay phase
    next => rfl
  · refine quiet ?_
    simp [decWritePort, decodeNibble_eq_none_of_hexValue bad]
  · refine quiet ?_
    unfold decWritePort
    split
    next => simp [first]
    next => rfl

theorem decOutputs_pbWrite_eq_some {c : Byte} {d : DecUnit} {v : Nat} (phase : d.phase = .pay)
    (digit : hexValue c = some v) (second : (d.pos.toNat - 13) % 2 = 1) :
    (decOutputs false true c d).pbWrite =
      some (BitVec.ofNat 11 ((d.pos.toNat - 13) / 2), d.hi ++ BitVec.ofNat 4 v) := by
  simp [decOutputs, decWritePort, phase, decodeNibble_of_hexValue digit, second, joinNibbles_append]

/-! ### The transaction (R60, R205) -/

theorem rxReady_eq_true_iff (t : TxnRegs) : rxReady t = true ↔ Reading t := by
  unfold rxReady Reading
  rw [Bool.and_eq_true]
  refine and_congr_right fun _ => ?_
  cases t.state with
  | awaitingHeader | awaitingPayload => exact decide_eq_true_iff.trans (by simp [Config.headerRegion, replyLength])
  | idle | sent | complete | failed => simp

theorem txnOutputs_flags (s : State) :
    ((txnOutputs s).ok = true ↔ s.txn.state = .complete) ∧
    ((txnOutputs s).done = true ↔ s.txn.state = .complete ∨ s.txn.state = .failed) ∧
    ((txnOutputs s).chFlush = true ↔ s.txn.busy = false ∧ s.ports.tStart = true) ∧
    ((txnOutputs s).txValid = true ↔ s.txn.busy = true ∧ s.txn.state = .idle ∧ s.txnEnc.phase = .emit) := by
  simp [txnOutputs, and_assoc]

/-- The results are gated by `t_ok`. -/
theorem txnOutputs_results (s : State) :
    let o := txnOutputs s
    (o.ok = false → o.status = 0 ∧ o.rplen = 0 ∧ o.ver = 0 ∧ o.radr = 0 ∧ o.dev = 0 ∧ o.rpData = none) ∧
    (o.ok = true →
      o.status = s.txn.status ∧ o.rplen = s.txn.rplen ∧ o.ver = s.txn.ver ∧ o.radr = s.txn.radr ∧
      o.dev = s.txn.dev ∧
      ∀ b, s.ports.rpIdx < s.txn.rplen → Memory.read s.txnDec.rpbuf s.ports.rpIdx.toNat = some b →
        o.rpData = some b) := by
  refine ⟨fun low => ?_, fun high => ?_⟩
  · have gate : (s.txn.state == .complete) = false := low
    simp only [txnOutputs, gate, Bool.false_eq_true, if_false, Bool.false_and, and_self]
  · have gate : (s.txn.state == .complete) = true := high
    simp only [txnOutputs, gate, if_true, Bool.true_and, true_and]
    intro b inside stored
    simp [inside, Memory.valueAt, stored]

/-- Settles O54: the codes, and block by block the levels of its ports. -/
theorem statusOutputs : Obligations.StatusOutputs := by
  unfold Obligations.StatusOutputs
  refine ⟨⟨rfl, rfl, rfl, rfl, rfl, rfl, rfl, rfl, rfl, rfl, errPort_toNat_le⟩, fun s => ?encoder, fun s => ?decoder,
    fun s => ?transaction⟩
  case encoder =>
    obtain ⟨valid, last, done, ok⟩ := encOutputs_flags (payloadByte s) s.enc
    exact ⟨valid, fun _ => rfl, last, done, ok, rfl, fun _ _ upper => encOutputs_pbIdx upper⟩
  case decoder =>
    obtain ⟨ready, ok, done⟩ := decOutputs_flags s.ports.deStart s.ports.deInValid s.ports.deInData s.dec
    obtain ⟨low, high⟩ := decOutputs_results s.ports.deStart s.ports.deInValid s.ports.deInData s.dec
    refine ⟨ready, ok, done, rfl, rfl, low, high, decOutputs_pbWrite_eq_none, fun v valid start phase digit second => ?_⟩
    have written := decOutputs_pbWrite_eq_some phase digit second
    rwa [← valid, ← start] at written
  case transaction =>
    obtain ⟨ok, done, flush, valid⟩ := txnOutputs_flags s
    obtain ⟨low, high⟩ := txnOutputs_results s
    exact ⟨ok, done, rfl, rfl, by cases h : s.txn.state <;> simp [txnOutputs, h, stateCode], flush, valid, fun _ => rfl,
      rxReady_eq_true_iff s.txn, low, high⟩

end Sys2Proof.Proofs
end

section
/-! PROOFS. frame_encoder: the registers after each byte of a frame, and the operation `Encode` (R140, R144, R145). -/

namespace Sys2Proof.Proofs

open Sys2Proof Sys2Proof.Machine Sys2Proof.Safety Sys2Proof.Laws

/-! ### The byte at an offset is the frame's (R144) -/

/-- The first `n` bytes that a payload reader gives. -/
def payloadOf (payload : Nat → Byte) (n : Nat) : List Byte := (List.range n).map payload

@[simp] theorem length_payloadOf (payload : Nat → Byte) (n : Nat) : (payloadOf payload n).length = n := by
  simp [payloadOf]

theorem getElem?_payloadOf (payload : Nat → Byte) {n i : Nat} (h : i < n) :
    (payloadOf payload n)[i]? = some (payload i) := by
  simp [payloadOf, h]

theorem encodePayload_eq (s : State) : encodePayload s = payloadOf (payloadByte s) s.ports.enPlen.toNat := rfl

theorem executePayload_eq (s : State) : executePayload s = payloadOf (payloadByte s) s.ports.tPlen.toNat := rfl

theorem getElem?_frameBytes_header (a f : Byte) (p : List Byte) {i : Nat} (h : i < 12) :
    (frameBytes a f p)[i + 1]? = some ((headerChars a f (BitVec.ofNat 12 (2 * p.length)))[i]?.getD 0) := by
  have front : (frameBytes a f p).take 13 = Config.soi :: headerChars a f (BitVec.ofNat 12 (2 * p.length)) := rfl
  have inside : i < (headerChars a f (BitVec.ofNat 12 (2 * p.length))).length := h
  rw [← List.getElem?_take_of_lt (show i + 1 < 13 by omega), front, List.getElem?_cons_succ,
    List.getElem?_eq_getElem inside, Option.getD_some]

theorem getElem?_frameBytes_checksum (a f : Byte) (p : List Byte) {i : Nat} (h : i < 4) :
    (frameBytes a f p)[13 + 2 * p.length + i]? =
      some ((encodeU16 (frameChecksum (frameBody a f p)))[i]?.getD 0) := by
  have inside : i < (encodeU16 (frameChecksum (frameBody a f p))).length := h
  rw [getElem?_of_drop (drop_frameBytes_checksum a f p), List.getElem?_append_left inside,
    List.getElem?_eq_getElem inside, Option.getD_some]

/-- `enc_byte_at` gives the frame byte by byte; past the payload it needs the frame's own checksum. -/
theorem getElem?_frameBytes_encByteAt (payload : Nat → Byte) (a f : Byte) {n : Nat} (hn : n ≤ 2047) {c : U16} {i : Nat}
    (hi : i < 18 + 2 * n)
    (hc : 13 + 2 * n ≤ i → c = frameChecksum (frameBody a f (payloadOf payload n))) :
    (frameBytes a f (payloadOf payload n))[i]? =
      some (encByteAt payload a f (BitVec.ofNat 12 (2 * n)) c i) := by
  have hexlen : (BitVec.ofNat 12 (2 * n)).toNat = 2 * n := by rw [BitVec.toNat_ofNat]; omega
  have length := length_payloadOf payload n
  unfold encByteAt
  dsimp only
  rw [hexlen]
  split_ifs with soi header info first checksum
  · rw [soi]; rfl
  · have at' := getElem?_frameBytes_header a f (payloadOf payload n) (show i - 1 < 12 by omega)
    rwa [Nat.sub_add_cancel (by omega), length] at at'
  · obtain ⟨high, -⟩ := getElem?_frameBytes_payload a f (getElem?_payloadOf payload (show (i - 13) / 2 < n by omega))
    rwa [show 13 + 2 * ((i - 13) / 2) = i by omega, ← highNibble_toNat, ← encodeNibble_eq] at high
  · obtain ⟨-, low⟩ := getElem?_frameBytes_payload a f (getElem?_payloadOf payload (show (i - 13) / 2 < n by omega))
    rwa [show 14 + 2 * ((i - 13) / 2) = i by omega, ← lowNibble_toNat, ← encodeNibble_eq] at low
  · have at' := getElem?_frameBytes_checksum a f (payloadOf payload n) (show i - (13 + 2 * n) < 4 by omega)
    rwa [length, Nat.add_sub_cancel' (by omega), ← hc (by omega)] at at'
  · have at' := getElem?_frameBytes_eoi a f (payloadOf payload n)
    rwa [length, show 17 + 2 * n = i by omega] at at'

/-! ### The registers after each byte (R145) -/

/-- The registers of an encoder that has emitted the first `k` bytes of the frame of these operands. -/
def encAfter (a f : Byte) (p : List Byte) (k : Nat) : EncRegs :=
  { phase := if k = 18 + 2 * p.length then .done else .emit
    idx := BitVec.ofNat 13 k
    adr := a
    fn := f
    hexlen := BitVec.ofNat 12 (2 * p.length)
    acc := BitVec.ofNat 16 (sumBytes ((frameBody a f p).take (k - 1)))
    err := none }

theorem encStart_legal {a : Byte} (f : Byte) {plen : U16} (r : EncRegs) (ha : a.toNat ≤ 15) (hn : plen.toNat ≤ 2047)
    {p : List Byte} (hp : p.length = plen.toNat) : encStart a f plen r = encAfter a f p 0 := by
  rcases encStart_cases a f plen r with ⟨bad, -⟩ | ⟨-, long, -⟩ | ⟨-, -, e⟩
  · omega
  · omega
  · rw [e, ← hp, encAfter, if_neg (by omega)]
    rfl

theorem idx_encAfter (a f : Byte) {p : List Byte} {k : Nat} (hp : p.length ≤ 2047) (hk : k ≤ 18 + 2 * p.length) :
    (encAfter a f p k).idx.toNat = k := by
  change (BitVec.ofNat 13 k).toNat = k
  rw [BitVec.toNat_ofNat]; omega

theorem phase_encAfter_emit (a f : Byte) {p : List Byte} {k : Nat} (hk : k < 18 + 2 * p.length) :
    (encAfter a f p k).phase = .emit := if_neg (by omega)

theorem phase_encAfter_done (a f : Byte) (p : List Byte) : (encAfter a f p (18 + 2 * p.length)).phase = .done := if_pos rfl

section
variable (payload : Nat → Byte) (a f : Byte) {n k : Nat}

/-- The byte offered next is the frame's next byte. -/
theorem getElem?_frameBytes_encData (hn : n ≤ 2047) (hk : k < 18 + 2 * n) :
    (frameBytes a f (payloadOf payload n))[k]? = some (encData payload (encAfter a f (payloadOf payload n) k)) := by
  have length := length_payloadOf payload n
  have idx := idx_encAfter a f (p := payloadOf payload n) (k := k) (by omega) (by omega)
  have whole (h : 13 + 2 * n ≤ k) :
      (frameBody a f (payloadOf payload n)).take (k - 1) = frameBody a f (payloadOf payload n) :=
    List.take_of_length_le (by rw [length_frameBody]; omega)
  have byte := getElem?_frameBytes_encByteAt payload a f hn hk
    (c := accResult (encAfter a f (payloadOf payload n) k).acc) fun h => by
      rw [encAfter, whole h, accResult_ofNat, frameChecksum]
  rw [byte, encData, idx]
  simp only [encAfter, length]

/-- The body in the frame: offset `k` of the frame is offset `k - 1` of the body. -/
theorem getElem?_frameBody (p : List Byte) (lower : 1 ≤ k) (upper : k ≤ 12 + 2 * p.length) :
    (frameBody a f p)[k - 1]? = (frameBytes a f p)[k]? := by
  rw [← body_of_frameBytes, List.getElem?_take_of_lt (by omega), List.getElem?_drop, Nat.add_sub_cancel' lower]

theorem sumBytes_append (as bs : List Byte) : sumBytes (as ++ bs) = sumBytes as + sumBytes bs := by simp [sumBytes]

/-- The sum over the bytes emitted so far, one byte on. -/
theorem sumBytes_take_frameBody {p : List Byte} {b : Byte} (byte : (frameBytes a f p)[k]? = some b) :
    sumBytes ((frameBody a f p).take k) =
      sumBytes ((frameBody a f p).take (k - 1)) + if 1 ≤ k ∧ k ≤ 12 + 2 * p.length then b.toNat else 0 := by
  split_ifs with body
  · obtain ⟨lower, upper⟩ := body
    have here := (getElem?_frameBody a f p lower upper).trans byte
    conv_lhs => rw [← Nat.sub_add_cancel lower, List.take_add_one, here, sumBytes_append]
    simp [sumBytes]
  · rcases Nat.eq_zero_or_pos k with rfl | pos
    · rfl
    · have past : 12 + 2 * p.length ≤ k - 1 := by omega
      rw [List.take_of_length_le (by rw [length_frameBody]; omega), List.take_of_length_le (by rwa [length_frameBody])]
      rfl

/-- The running sum takes in the bytes of the body, and no marker or checksum character (R145). -/
theorem acc_encAfter_succ {p : List Byte} {b : Byte} (byte : (frameBytes a f p)[k]? = some b) :
    (if 1 ≤ k ∧ k ≤ 12 + 2 * p.length then accAdd (encAfter a f p k).acc b else (encAfter a f p k).acc) =
      (encAfter a f p (k + 1)).acc := by
  change _ = BitVec.ofNat 16 (sumBytes ((frameBody a f p).take k))
  rw [sumBytes_take_frameBody a f byte]
  split_ifs
  · apply BitVec.eq_of_toNat_eq
    simp [encAfter, accAdd]
  · rfl

/-- Emitting the frame's next byte. -/
theorem encEmit_encAfter (hn : n ≤ 2047) (hk : k < 18 + 2 * n) :
    encEmit payload (encAfter a f (payloadOf payload n) k) = encAfter a f (payloadOf payload n) (k + 1) := by
  have byte := getElem?_frameBytes_encData payload a f hn hk
  generalize hb : encData payload (encAfter a f (payloadOf payload n) k) = b at byte
  have length := length_payloadOf payload n
  generalize payloadOf payload n = p at byte hb length ⊢
  subst length
  have idx := idx_encAfter a f hn hk.le
  have hexlen : (encAfter a f p k).hexlen.toNat = 2 * p.length := hexlen_toNat hn
  have phase : (if k = 17 + 2 * p.length then .done else (encAfter a f p k).phase) = (encAfter a f p (k + 1)).phase := by
    rw [phase_encAfter_emit a f hk]
    exact if_congr (by omega) rfl rfl
  have next : (encAfter a f p k).idx + 1 = (encAfter a f p (k + 1)).idx := by
    apply BitVec.eq_of_toNat_eq
    simp [encAfter]
  simp only [encEmit, hb, idx, hexlen, acc_encAfter_succ a f byte, phase, next]
  rfl

end

/-! ### The operation `Encode` (R140, R141) -/

/-- Emitting the rest of the frame, byte by byte. -/
theorem encRun_encAfter (a f : Byte) {n : Nat} (hn : n ≤ 2047) {k count : Nat} (hk : k + count = 18 + 2 * n) (s : State)
    (enc : s.enc = encAfter a f (payloadOf (payloadByte s) n) k)
    (taken : s.enTaken = (frameBytes a f (payloadOf (payloadByte s) n)).take k) :
    encRun count s = { s with
      enc := encAfter a f (payloadOf (payloadByte s) n) (18 + 2 * n)
      enTaken := frameBytes a f (payloadOf (payloadByte s) n) } := by
  induction count generalizing k s with
  | zero =>
    obtain rfl : k = 18 + 2 * n := hk
    have all : (frameBytes a f (payloadOf (payloadByte s) n)).take (18 + 2 * n) =
        frameBytes a f (payloadOf (payloadByte s) n) :=
      List.take_of_length_le (by rw [length_frameBytes, length_payloadOf])
    rw [encRun, ← enc, ← all, ← taken]
  | succ count ih =>
    have more : k < 18 + 2 * n := by omega
    have emitting : s.enc.phase = .emit := by rw [enc]; exact phase_encAfter_emit a f (by simpa using more)
    have byte := getElem?_frameBytes_encData (payloadByte s) a f hn more
    have stepEnc : (encEmitStep s).enc = encAfter a f (payloadOf (payloadByte s) n) (k + 1) := by
      rw [← encEmit_encAfter (payloadByte s) a f hn more, ← enc]; rfl
    have stepTaken : (encEmitStep s).enTaken = (frameBytes a f (payloadOf (payloadByte s) n)).take (k + 1) := by
      rw [List.take_add_one, byte, ← taken, ← enc]; rfl
    rw [encRun, if_pos emitting]
    exact ih (k := k + 1) (by omega) (encEmitStep s) stepEnc stepTaken

theorem encStartStep_of_not_emit {s : State} (notEmit : s.enc.phase ≠ .emit) :
    encStartStep s =
      { s with enc := encStart s.ports.enAddr s.ports.enFn s.ports.enPlen s.enc, enTaken := [] } := if_neg notEmit

/-- Settles O9: a start puts the encoder before the first byte, and each byte moves it to the next. -/
theorem encodeEmitsTheFrame : Obligations.EncodeEmitsTheFrame := by
  unfold Obligations.EncodeEmitsTheFrame
  intro s notEmit address plen
  have length : (encodePayload s).length = s.ports.enPlen.toNat := length_payloadOf ..
  have payloadFits : (encodePayload s).length ≤ 2047 := length ▸ plen
  refine ⟨frameBytes s.ports.enAddr s.ports.enFn (encodePayload s), encodeFrame_legal _ address payloadFits, ?_⟩
  have started := encStart_legal s.ports.enFn s.enc address plen length
  have hexlen : (encAfter s.ports.enAddr s.ports.enFn (encodePayload s) 0).hexlen.toNat = 2 * s.ports.enPlen.toNat := by
    rw [← length]; exact hexlen_toNat payloadFits
  have run := encRun_encAfter s.ports.enAddr s.ports.enFn plen (k := 0) (Nat.zero_add _)
    { s with enc := encAfter s.ports.enAddr s.ports.enFn (encodePayload s) 0, enTaken := [] } rfl rfl
  have result (t : State) (done : t.enc.phase = .done) : encResult t = some (.ok (.frame t.enTaken)) := by
    simp only [encResult, done]
  have body := body_of_frameBytes s.ports.enAddr s.ports.enFn (encodePayload s)
  have whole : (frameBody s.ports.enAddr s.ports.enFn (encodePayload s)).take (18 + 2 * s.ports.enPlen.toNat - 1) =
      frameBody s.ports.enAddr s.ports.enFn (encodePayload s) :=
    List.take_of_length_le (by rw [length_frameBody, length]; omega)
  have ended : encAfter s.ports.enAddr s.ports.enFn (encodePayload s) (18 + 2 * s.ports.enPlen.toNat) =
      { phase := .done, idx := BitVec.ofNat 13 (18 + 2 * s.ports.enPlen.toNat), adr := s.ports.enAddr
        fn := s.ports.enFn, hexlen := BitVec.ofNat 12 (2 * s.ports.enPlen.toNat)
        acc := BitVec.ofNat 16 (sumBytes (frameBody s.ports.enAddr s.ports.enFn (encodePayload s))), err := none } := by
    rw [encAfter, whole, length, if_pos rfl]
  rw [length] at body
  simp only [exec, execEncode, if_neg notEmit, encStartStep_of_not_emit notEmit, started, hexlen, Config.overhead]
  rw [run]
  simp only [encodePayload_eq] at ended body ⊢
  rw [result _ (congrArg EncRegs.phase ended)]
  have same : payloadByte { s with enc := encAfter s.ports.enAddr s.ports.enFn (encodePayload s) 0, enTaken := [] } =
      payloadByte s := rfl
  simp only [encodePayload_eq] at same
  simp only [same, ended, body]

/-- An encoder that is not emitting takes no byte. -/
theorem encRun_of_not_emit (count : Nat) {s : State} (notEmit : s.enc.phase ≠ .emit) : encRun count s = s := by
  cases count with
  | zero => rfl
  | succ count => exact if_neg notEmit

theorem execEncode_refused {s : State} {e : ErrorName} (notEmit : s.enc.phase ≠ .emit)
    (fail : (encStarted s.ports.enAddr s.ports.enFn s.ports.enPlen s.enc).phase = .fail)
    (err : (encStarted s.ports.enAddr s.ports.enFn s.ports.enPlen s.enc).err = some e) :
    exec .encode s =
      .next { s with
        enc := encStarted s.ports.enAddr s.ports.enFn s.ports.enPlen s.enc, enTaken := [], result := some (.err e) } := by
  have refused : (encStartStep s).enc.phase ≠ .emit := by
    rw [encStartStep_of_not_emit notEmit, encStart_eq]; simp [fail]
  simp only [exec, execEncode, if_neg notEmit, encRun_of_not_emit _ refused]
  rw [encStartStep_of_not_emit notEmit, encStart_eq]
  simp [encResult, fail, err]

/-- Settles O10: `enc_start` decides both errors, and a failed encoder emits nothing. -/
theorem encodeRefusals : Obligations.EncodeRefusals := by
  unfold Obligations.EncodeRefusals
  refine fun s => ⟨fun emitting => if_pos emitting, fun notEmit bad => ?address, fun notEmit legal long => ?length⟩
  case address =>
    have started : encStarted s.ports.enAddr s.ports.enFn s.ports.enPlen s.enc = _ := if_pos bad
    rw [execEncode_refused notEmit (by rw [started]) (by rw [started]), started]
  case length =>
    have started : encStarted s.ports.enAddr s.ports.enFn s.ports.enPlen s.enc = _ :=
      (if_neg (Nat.not_lt.mpr legal)).trans (if_pos (by omega))
    rw [execEncode_refused notEmit (by rw [started]) (by rw [started]), started]

end Sys2Proof.Proofs
end

section
/-! PROOFS. Characters and frame fields at the stand-alone decoder: what each offers and what it leaves (R74 to R79, R168 to
R173; log 1). -/

namespace Sys2Proof.Proofs

open Sys2Proof Sys2Proof.Machine Sys2Proof.Safety Sys2Proof.Laws

/-! ### Offered bytes and the result they present -/

/-- Bytes that leave the decoder wanting more present no result. -/
theorem decOffer_of_accepts {bytes : List Byte} {s : State} (after : decAccepts (decRun bytes s.dec).1.phase = true) :
    decOffer bytes s = { s with dec := (decRun bytes s.dec).1 } := by
  simp [decOffer, after]

/-- Bytes that fail a decode present its error. -/
theorem decOffer_of_failed {bytes : List Byte} {s : State} {e : ErrorName} {d : DecUnit}
    (before : decAccepts s.dec.phase = true) (after : (decRun bytes s.dec).1 = decFailed e d) :
    decOffer bytes s = { s with dec := decFailed e d, result := some (.err e) } := by
  have ended : decAccepts (decFailed e d).phase = false := rfl
  simp only [decOffer, before, after, ended, Bool.not_false, Bool.and_self, if_true]
  rfl

theorem decRun_singleton (c : Byte) (d : DecUnit) : (decRun [c] d).1 = decByte c d := by
  cases accepts : decAccepts d.phase with
  | true => rw [decRun_cons_accepting c [] accepts, decRun_nil]
  | false => rw [decRun_at_rest _ accepts, decByte_at_rest c accepts]

/-- A failed decoder takes no more bytes. -/
theorem decRun_cons_of_failed {c : Byte} {cs : List Byte} {d t : DecUnit} {e : ErrorName}
    (accepts : decAccepts d.phase = true) (failed : decByte c d = decFailed e t) :
    (decRun (c :: cs) d).1 = decFailed e t := by
  rw [decRun_cons_accepting c cs accepts, failed, decRun_at_rest cs rfl]

/-! ### The markers (R168, R173) -/

theorem accepts_of_phase {d : DecUnit} {ph : DPhase} (phase : d.phase = ph) (accepts : decAccepts ph = true) :
    decAccepts d.phase = true := phase ▸ accepts

theorem accepts_of_digit_phase {d : DecUnit} (phase : d.phase = .hdr ∨ d.phase = .pay ∨ d.phase = .chk) :
    decAccepts d.phase = true :=
  (decAccepts_eq_true_iff _).mpr (.inr (phase.imp_right (Or.imp_right .inl)))

/-- One byte that fails a decode, as a field of its own. -/
theorem decOffer_singleton_failed {c : Byte} {s : State} {e : ErrorName} (before : decAccepts s.dec.phase = true)
    (failed : decByte c s.dec = decFailed e s.dec) :
    decOffer [c] s = { s with dec := decFailed e s.dec, result := some (.err e) } :=
  decOffer_of_failed before ((decRun_singleton c s.dec).trans failed)

/-- The bytes of a buffer, where they are known. -/
theorem memory_bytes_eq_of_stored {buffer epoch : Nat} {m : Memory} {raw : List Byte} (h : Stored m raw) :
    Memory.bytes buffer epoch m raw.length = raw := by
  refine List.ext_getElem (by simp) fun i _ hi => ?_
  simp [Memory.bytes, Memory.valueAt, h i hi, hi]

/-- Settles O22: `dec_byte` of the two markers and of a digit, phase by phase, and the result of a decode that ends. -/
theorem markersInEveryPhase : Obligations.MarkersInEveryPhase := by
  unfold Obligations.MarkersInEveryPhase
  refine fun s => ⟨fun phase => ?soi, fun phase => ?digits, fun phase => ?eoi, fun phase row member => ?characters⟩
  case soi =>
    have accepts := accepts_of_phase phase rfl
    have taken : (decRun [Config.soi] s.dec).1 = { s.dec with phase := .hdr, pos := s.dec.pos + 1 } :=
      (decRun_singleton _ _).trans (decByte_soi _ phase)
    refine ⟨?_, congrArg _ (decOffer_singleton_failed accepts (decByte_soi _ phase))⟩
    exact congrArg _ ((decOffer_of_accepts (by rw [taken]; rfl)).trans (by rw [taken]))
  case digits =>
    have accepts := accepts_of_digit_phase phase
    exact ⟨congrArg _ (decOffer_singleton_failed accepts (decByte_of_not_digit rfl phase)),
      congrArg _ (decOffer_singleton_failed accepts (decByte_of_not_digit rfl phase))⟩
  case eoi =>
    have accepts := accepts_of_phase phase rfl
    have taken : (decRun [Config.eoi] s.dec).1 = { s.dec with phase := .ok, pos := s.dec.pos + 1 } :=
      (decRun_singleton _ _).trans (decByte_eoi _ phase)
    refine ⟨congrArg _ (decOffer_singleton_failed accepts (decByte_eoi _ phase)), fun payload length stored => ?_⟩
    have bytes := memory_bytes_eq_of_stored (buffer := 2) (epoch := s.epoch) stored
    rw [length] at bytes
    have ended : decAccepts DPhase.ok = false := rfl
    change Host.Outcome.next (decOffer [Config.eoi] s) = _
    simp only [decOffer, taken, accepts, ended, Bool.not_false, Bool.and_self, if_true, decResult, decReply, bytes]
  case characters =>
    obtain ⟨i, c, v⟩ := row
    obtain ⟨digit, -⟩ := exec_hexRow member
    have notSoi : c ≠ 0x7E := by rintro rfl; cases digit
    have notEoi : c ≠ 0x0D := by rintro rfl; cases digit
    rw [exec_hexRow_eq member]
    rcases phase with phase | phase
    · rw [decByte_soi c phase, if_neg notSoi]
    · rw [decByte_eoi c phase, if_neg notEoi]

/-! ### Characters (R169 to R172) -/

/-- Settles O23: `dec_byte` of a header digit. -/
theorem charactersInTheHeader : Obligations.CharactersInTheHeader := by
  unfold Obligations.CharactersInTheHeader
  intro s i c v row phase
  obtain ⟨digit, -⟩ := exec_hexRow row
  dsimp only
  rw [exec_hexRow_eq row]
  refine ⟨fun ⟨lower, upper⟩ => ?_, fun last => ?_⟩
  · rw [decByte_header_digit digit phase lower upper]
  · have parity (w : U16) : w.toNat % 4096 % 2 = w.toNat % 2 := by omega
    rw [decByte_header_last digit phase last]
    simp only [parity]

/-- Settles O24: `dec_byte` of a payload digit. -/
theorem charactersInThePayload : Obligations.CharactersInThePayload := by
  unfold Obligations.CharactersInThePayload
  intro s i c v row phase
  obtain ⟨digit, -⟩ := exec_hexRow row
  dsimp only
  intro lower upper
  rw [exec_hexRow_eq row, decByte_payload_digit digit phase]
  exact ⟨_, rfl, read_rpbufAfterDigit v s.dec (by omega)⟩

/-- Settles O25: `dec_byte` of a checksum digit. -/
theorem charactersInTheChecksum : Obligations.CharactersInTheChecksum := by
  unfold Obligations.CharactersInTheChecksum
  intro s i c v row phase
  obtain ⟨digit, -⟩ := exec_hexRow row
  dsimp only
  rw [exec_hexRow_eq row, decByte_checksum_digit digit phase]
  simp only [ite_not]

/-! ### A run of digits, up to a byte that is none (R164) -/

/-- The last offset of the run of digits a phase is in: the header's, or that of the payload and the checksum. -/
def lastDigit (d : DecUnit) : Option Nat :=
  match d.phase with
  | .hdr => some 12
  | .pay | .chk => some (16 + decN d)
  | .idle | .soi | .eoi | .ok | .fail => none

theorem phase_of_lastDigit {d : DecUnit} {m : Nat} (h : lastDigit d = some m) :
    d.phase = .hdr ∨ d.phase = .pay ∨ d.phase = .chk := by
  unfold lastDigit at h
  split at h <;> simp_all

/-- Before the last one of its phase a digit moves the position on, and nothing else that the next digit depends on. -/
theorem lastDigit_decByte {c : Byte} {v : Nibble} {d : DecUnit} {m : Nat} (digit : decodeNibble c = some v)
    (h : lastDigit d = some m) (lower : 1 ≤ d.pos.toNat) (upper : d.pos.toNat < m) :
    lastDigit (decByte c d) = some m ∧ (decByte c d).pos.toNat = d.pos.toNat + 1 := by
  have bound : decN d < 4096 := (lenid d.len).isLt
  unfold lastDigit at h
  split at h
  next phase =>
    cases h
    rw [decByte_header_digit digit phase lower (by omega)]
    exact ⟨by simp only [lastDigit, phase], by simp only; bv_omega⟩
  next phase =>
    cases h
    rw [decByte_payload_digit digit phase, ← decN_eq]
    refine ⟨?_, by simp only; bv_omega⟩
    split <;> rfl
  next phase =>
    cases h
    rw [decByte_checksum_digit digit phase, ← decN_eq, if_pos (by omega)]
    exact ⟨by simp only [lastDigit, phase]; rfl, by simp only; bv_omega⟩
  all_goals cases h

/-- The first byte that is no digit fails the decode at its offset. -/
theorem decRun_bad_digit {chars : List Byte} {k m : Nat} {bad : Byte} {d : DecUnit} (h : lastDigit d = some m)
    (lower : 1 ≤ d.pos.toNat) (upper : d.pos.toNat + k ≤ m) (here : chars[k]? = some bad)
    (notDigit : decodeNibble bad = none) (before : ∀ c ∈ chars.take k, decodeNibble c ≠ none) :
    ∃ t, (decRun chars d).1 = decFailed .invalidHexDigit t ∧ t.pos.toNat = d.pos.toNat + k := by
  induction k generalizing chars d with
  | zero =>
    obtain ⟨cs, rfl⟩ : ∃ cs, chars = bad :: cs := by
      cases chars with
      | nil => cases here
      | cons c cs => cases here; exact ⟨cs, rfl⟩
    have phase := phase_of_lastDigit h
    exact ⟨d, decRun_cons_of_failed (accepts_of_digit_phase phase) (decByte_of_not_digit notDigit phase), rfl⟩
  | succ k ih =>
    cases chars with
    | nil => cases here
    | cons c cs =>
      have good : decodeNibble c ≠ none := before c (by simp)
      obtain ⟨v, digit⟩ := Option.ne_none_iff_exists'.mp good
      obtain ⟨next, pos⟩ := lastDigit_decByte digit h lower (by omega)
      obtain ⟨t, failed, stands⟩ := ih (chars := cs) next (by omega) (by omega) here fun c' mem =>
        before c' (List.mem_cons_of_mem c mem)
      refine ⟨t, ?_, by omega⟩
      rw [decRun_cons_accepting c cs (accepts_of_digit_phase (phase_of_lastDigit h))]
      exact failed

/-- A field whose first bad digit is number `k`: the statements' form of the refusal. -/
theorem decOffer_bad_digit {chars : List Byte} {k m p : Nat} {bad : Byte} {s : State} (h : lastDigit s.dec = some m)
    (pos : s.dec.pos.toNat = p) (lower : 1 ≤ p) (upper : p + k ≤ m) (here : chars[k]? = some bad)
    (notDigit : hexValue bad = none) (before : ∀ c ∈ chars.take k, hexValue c ≠ none) :
    ∃ d : DecUnit,
      Host.Outcome.next (φ := Fault) (ρ := Refusal) (decOffer chars s) =
        .next { s with dec := d, result := some (.err .invalidHexDigit) } ∧
      d.phase = .fail ∧ d.err = some .invalidHexDigit ∧ d.pos.toNat = p + k ∧ NoValues d.rpbuf := by
  have digits (c : Byte) (mem : c ∈ chars.take k) : decodeNibble c ≠ none := by
    have value := before c mem
    rwa [hexValue_eq, Ne, Option.map_eq_none_iff] at value
  obtain ⟨t, failed, stands⟩ := decRun_bad_digit h (by omega) (by omega) here
    (decodeNibble_eq_none_of_hexValue notDigit) digits
  exact ⟨decFailed .invalidHexDigit t,
    congrArg _ (decOffer_of_failed (accepts_of_digit_phase (phase_of_lastDigit h)) failed), rfl, rfl,
    pos ▸ stands, read_nil⟩

/-! ### The one-byte fields (R76, R169) -/

theorem ofNat_pair {v0 v1 : Nat} (h0 : v0 < 16) (h1 : v1 < 16) :
    BitVec.ofNat 8 (16 * v0 + v1) = BitVec.ofNat 4 v0 ++ BitVec.ofNat 4 v1 := by
  rw [← joinNibbles_append, joinNibbles_eq, BitVec.toNat_ofNat, BitVec.toNat_ofNat, Nat.mod_eq_of_lt h0,
    Nat.mod_eq_of_lt h1]

theorem hexValue_lt {c : Byte} {v : Nat} (h : hexValue c = some v) : v < 16 := by
  rw [hexValue_eq, Option.map_eq_some_iff] at h
  obtain ⟨n, -, rfl⟩ := h
  exact n.isLt

/-- Two header digits from an odd offset below 9: the byte goes to the register of that offset. -/
theorem decRun_header_pair {c0 c1 : Byte} {v0 v1 : Nibble} (cs : List Byte) {d : DecUnit} (digit0 : decodeNibble c0 = some v0)
    (digit1 : decodeNibble c1 = some v1) (phase : d.phase = .hdr)
    (pos : d.pos = 1 ∨ d.pos = 3 ∨ d.pos = 5 ∨ d.pos = 7) :
    decRun (c0 :: c1 :: cs) d = decRun cs { d with
      pos := d.pos + 2
      acc := d.acc + c0.setWidth 16 + c1.setWidth 16
      hi := v0
      ver := if d.pos = 1 then v0 ++ v1 else d.ver
      adr := if d.pos = 3 then v0 ++ v1 else d.adr
      dev := if d.pos = 5 then v0 ++ v1 else d.dev
      fn := if d.pos = 7 then v0 ++ v1 else d.fn } := by
  have accepts := accepts_of_phase phase rfl
  obtain ⟨ph, p, _, _, _, _, _, _, _, _, _, _, _⟩ := d
  subst phase
  rcases pos with rfl | rfl | rfl | rfl <;>
    rw [decRun_cons_accepting _ _ accepts, decByte_header_digit digit0 rfl (by dsimp only; decide)
      (by dsimp only; decide), decRun_cons_accepting _ _ rfl,
      decByte_header_digit digit1 rfl (by dsimp only; decide)
      (by dsimp only; decide)] <;> rfl

/-- The first digit of a one-byte field, and a bad second one. -/
theorem decRun_header_bad_second {c0 c1 : Byte} {v0 : Nibble} {d : DecUnit} (digit0 : decodeNibble c0 = some v0)
    (bad1 : decodeNibble c1 = none) (phase : d.phase = .hdr)
    (pos : d.pos = 1 ∨ d.pos = 3 ∨ d.pos = 5 ∨ d.pos = 7) :
    (decRun [c0, c1] d).1 =
      decFailed .invalidHexDigit { d with pos := d.pos + 1, acc := d.acc + c0.setWidth 16, hi := v0 } := by
  have accepts := accepts_of_phase phase rfl
  obtain ⟨ph, p, _, _, _, _, _, _, _, _, _, _, _⟩ := d
  subst phase
  rcases pos with rfl | rfl | rfl | rfl <;>
    rw [decRun_cons_accepting _ _ accepts, decByte_header_digit digit0 rfl (by dsimp only; decide)
      (by dsimp only; decide), decRun_singleton,
      decByte_of_not_digit bad1 (.inl rfl)] <;> rfl

theorem exec_one_byte_field {i : Instr} {c0 c1 : Byte}
    (h : i ∈ [Instr.frameVer c0 c1, .frameAdr c0 c1, .frameDev c0 c1, .frameFn c0 c1]) (s : State) :
    exec i s = .next (decOffer [c0, c1] s) := by
  simp only [List.mem_cons, List.not_mem_nil, or_false] at h
  rcases h with rfl | rfl | rfl | rfl <;> rfl

/-- Settles O26: the two digits one after the other. -/
theorem oneByteFields : Obligations.OneByteFields := by
  unfold Obligations.OneByteFields
  refine fun s c0 c1 phase => ⟨fun v0 v1 h0 h1 => ?good, fun i member => ⟨fun bad => ?first, fun v0 h0 bad pos => ?second⟩⟩
  case good =>
    have offered (pos : s.dec.pos = 1 ∨ s.dec.pos = 3 ∨ s.dec.pos = 5 ∨ s.dec.pos = 7) :=
      decRun_header_pair [] (decodeNibble_of_hexValue h0) (decodeNibble_of_hexValue h1) phase pos
    have going (pos : s.dec.pos = 1 ∨ s.dec.pos = 3 ∨ s.dec.pos = 5 ∨ s.dec.pos = 7) :
        decOffer [c0, c1] s = { s with dec := (decRun [c0, c1] s.dec).1 } :=
      decOffer_of_accepts (by rw [offered pos, decRun_nil]; exact accepts_of_phase phase rfl)
    dsimp only
    rw [ofNat_pair (hexValue_lt h0) (hexValue_lt h1)]
    refine ⟨fun pos => ?_, fun pos => ?_, fun pos => ?_, fun pos => ?_⟩
    · exact congrArg _ ((going (.inl pos)).trans (by rw [offered (.inl pos), pos]; rfl))
    · exact congrArg _ ((going (.inr (.inl pos))).trans (by rw [offered (.inr (.inl pos)), pos]; rfl))
    · exact congrArg _ ((going (.inr (.inr (.inl pos)))).trans (by rw [offered (.inr (.inr (.inl pos))), pos]; rfl))
    · exact congrArg _ ((going (.inr (.inr (.inr pos)))).trans (by rw [offered (.inr (.inr (.inr pos))), pos]; rfl))
  case first =>
    have accepts := accepts_of_phase phase rfl
    rw [exec_one_byte_field member, decOffer_of_failed accepts (decRun_cons_of_failed accepts
      (decByte_of_not_digit (decodeNibble_eq_none_of_hexValue bad) (.inl phase)))]
  case second =>
    rw [exec_one_byte_field member, decOffer_of_failed (accepts_of_phase phase rfl) (decRun_header_bad_second
      (decodeNibble_of_hexValue h0) (decodeNibble_eq_none_of_hexValue bad) phase pos)]

end Sys2Proof.Proofs
end

section
/-! PROOFS. The fields of more than one digit pair: length, payload and checksum (R77 to R79, R170 to R172). -/

namespace Sys2Proof.Proofs

open Sys2Proof Sys2Proof.Machine Sys2Proof.Safety Sys2Proof.Laws

/-! ### Four digits (R105) -/

/-- Four digits shifted into a register one by one leave the word they decode to. -/
theorem digits_of_decodeU16 {c0 c1 c2 c3 : Byte} {w : U16} (h : decodeU16 c0 c1 c2 c3 = some w) :
    ∃ v0 v1 v2 v3 : Nibble, decodeNibble c0 = some v0 ∧ decodeNibble c1 = some v1 ∧ decodeNibble c2 = some v2 ∧
      decodeNibble c3 = some v3 ∧
      ∀ r : U16, shiftInNibble (shiftInNibble (shiftInNibble (shiftInNibble r v0) v1) v2) v3 = w := by
  have hex : (decodeU16 c0 c1 c2 c3).isSome = true := by rw [h]; rfl
  simp only [isSome_decodeU16, isHex, Bool.and_eq_true, Option.isSome_iff_exists] at hex
  obtain ⟨⟨⟨⟨v0, h0⟩, v1, h1⟩, v2, h2⟩, v3, h3⟩ := hex
  have value := decodeU16_toNat h0 h1 h2 h3
  rw [h, Option.map_some, Option.some_inj] at value
  refine ⟨v0, v1, v2, v3, h0, h1, h2, h3, fun r => BitVec.eq_of_toNat_eq ?_⟩
  have := v0.isLt; have := v1.isLt; have := v2.isLt; have := v3.isLt
  rw [value, shiftInNibble_toNat, shiftInNibble_toNat, shiftInNibble_toNat, shiftInNibble_toNat]
  omega

/-- Four digits that have a value, as the word they decode to. -/
theorem decodeU16_of_hexValues {c0 c1 c2 c3 : Byte} {w : Nat} (h : hexValues [c0, c1, c2, c3] = some w) :
    ∃ x : U16, decodeU16 c0 c1 c2 c3 = some x ∧ x.toNat = w ∧ BitVec.ofNat 16 w = x := by
  rw [hexValues_four, Option.map_eq_some_iff] at h
  obtain ⟨x, hx, rfl⟩ := h
  exact ⟨x, hx, rfl, by simp⟩

/-! ### The length field (R77, R170) -/

/-- What the length evaluation leaves of a decoder `d` whose fourth length digit completes the word `w`. -/
def lengthEvaluated (w : U16) (d : DecUnit) : DecUnit :=
  if w.toNat / 4096 ≠ nibbleCheck (w.toNat % 4096) then decFailed .lengthChecksumMismatch { d with pos := 12, len := w }
  else if w.toNat % 2 = 1 then decFailed .malformedFrame { d with pos := 12, len := w }
  else { d with pos := 13, len := w, phase := if w.toNat % 4096 = 0 then .chk else .pay }

/-- A length digit before the last one is shifted in. -/
theorem decByte_length_digit {c : Byte} {v : Nibble} {d : DecUnit} (digit : decodeNibble c = some v)
    (phase : d.phase = .hdr) (lower : 9 ≤ d.pos.toNat) (upper : d.pos.toNat ≤ 11) :
    decByte c d = { d with
      pos := d.pos + 1, acc := d.acc + c.setWidth 16, len := d.len.extractLsb' 0 12 ++ v } := by
  rw [decByte_header_digit digit phase (by omega) upper, if_neg (by omega), if_neg (by omega), if_neg (by omega),
    if_neg (by omega), if_neg (by omega), if_pos lower]

theorem decRun_length {c0 c1 c2 c3 : Byte} {w : U16} (cs : List Byte) {d : DecUnit}
    (digits : decodeU16 c0 c1 c2 c3 = some w) (phase : d.phase = .hdr) (pos : d.pos = 9) :
    decRun (c0 :: c1 :: c2 :: c3 :: cs) d = decRun cs (lengthEvaluated w { d with
      acc := d.acc + c0.setWidth 16 + c1.setWidth 16 + c2.setWidth 16 + c3.setWidth 16 }) := by
  obtain ⟨v0, v1, v2, v3, h0, h1, h2, h3, shifted⟩ := digits_of_decodeU16 digits
  have accepts := accepts_of_phase phase rfl
  obtain ⟨ph, p, _, _, _, _, _, _, r, _, _, _, _⟩ := d
  subst phase pos
  have value : (((r.extractLsb' 0 12 ++ v0).extractLsb' 0 12 ++ v1).extractLsb' 0 12 ++ v2).extractLsb' 0 12 ++ v3 = w := by
    simpa only [shiftInNibble_append] using shifted r
  rw [decRun_cons_accepting _ _ accepts, decByte_length_digit h0 rfl (by dsimp only; decide) (by dsimp only; decide),
    decRun_cons_accepting _ _ rfl, decByte_length_digit h1 rfl (by dsimp only; decide) (by dsimp only; decide),
    decRun_cons_accepting _ _ rfl, decByte_length_digit h2 rfl (by dsimp only; decide) (by dsimp only; decide),
    decRun_cons_accepting _ _ rfl, decByte_header_last h3 rfl (by dsimp only; decide)]
  dsimp only
  rw [value]
  rfl

/-- The bytes of a field whose digits complete nothing but the registers, or end the decode. -/
theorem decOffer_of_decRun {bytes : List Byte} {s : State} {d : DecUnit} (run : decRun bytes s.dec = decRun [] d)
    (accepts : decAccepts d.phase = true) : decOffer bytes s = { s with dec := d } := by
  have after : (decRun bytes s.dec).1 = d := by rw [run, decRun_nil]
  rw [decOffer_of_accepts (by rw [after, accepts]), after]

theorem decOffer_of_decRun_failed {bytes : List Byte} {s : State} {d : DecUnit} {e : ErrorName}
    (before : decAccepts s.dec.phase = true) (run : decRun bytes s.dec = decRun [] (decFailed e d)) :
    decOffer bytes s = { s with dec := decFailed e d, result := some (.err e) } :=
  decOffer_of_failed before (by rw [run, decRun_nil])

/-- Settles O27: the four digits one after the other, and the first bad one. -/
theorem lengthField : Obligations.LengthField := by
  unfold Obligations.LengthField
  refine fun s c0 c1 c2 c3 phase pos => ⟨fun w value => ?good, fun k bad here notDigit before => ?bad⟩
  case good =>
    obtain ⟨x, digits, rfl, word⟩ := decodeU16_of_hexValues value
    have run := decRun_length [] digits phase pos
    have accepts := accepts_of_phase phase rfl
    dsimp only
    rw [word]
    refine congrArg Host.Outcome.next (show decOffer [c0, c1, c2, c3] s = _ from ?_)
    unfold lengthEvaluated at run
    by_cases mismatch : x.toNat / 4096 ≠ nibbleCheck (x.toNat % 4096)
    · rw [if_pos mismatch] at run ⊢
      exact decOffer_of_decRun_failed accepts run
    rw [if_neg mismatch] at run ⊢
    by_cases odd : x.toNat % 2 = 1
    · rw [if_pos odd] at run ⊢
      exact decOffer_of_decRun_failed accepts run
    · rw [if_neg odd] at run ⊢
      exact decOffer_of_decRun run (by dsimp only; split <;> rfl)
  case bad =>
    have last : lastDigit s.dec = some 12 := by rw [lastDigit, phase]
    have inside : k < 4 := by
      obtain ⟨lt, -⟩ := List.getElem?_eq_some_iff.mp here
      exact lt
    exact decOffer_bad_digit last (congrArg BitVec.toNat pos) (by decide) (by omega) here notDigit before

/-! ### The checksum field (R79, R172) -/

/-- What the comparison leaves of a decoder `d` whose fourth checksum digit completes the word `w`. -/
def checksumCompared (w : U16) (d : DecUnit) : DecUnit :=
  if (w.toNat + d.acc.toNat) % 65536 = 0 then { d with phase := .eoi, pos := d.pos + 4, chk := w }
  else decFailed .checksumMismatch { d with pos := d.pos + 3, chk := w }

theorem decRun_checksum {c0 c1 c2 c3 : Byte} {w : U16} (cs : List Byte) {d : DecUnit}
    (digits : decodeU16 c0 c1 c2 c3 = some w) (phase : d.phase = .chk)
    (pos : d.pos.toNat = 13 + d.len.toNat % 4096) :
    decRun (c0 :: c1 :: c2 :: c3 :: cs) d = decRun cs (checksumCompared w d) := by
  obtain ⟨v0, v1, v2, v3, h0, h1, h2, h3, shifted⟩ := digits_of_decodeU16 digits
  have accepts := accepts_of_phase phase rfl
  obtain ⟨ph, p, _, _, _, _, _, _, len, r, _, _, _⟩ := d
  dsimp only at pos
  subst phase
  have value : (((r.extractLsb' 0 12 ++ v0).extractLsb' 0 12 ++ v1).extractLsb' 0 12 ++ v2).extractLsb' 0 12 ++ v3 = w := by
    simpa only [shiftInNibble_append] using shifted r
  have second : (p + 1).toNat ≠ 16 + len.toNat % 4096 := by bv_omega
  have third : (p + 1 + 1).toNat ≠ 16 + len.toNat % 4096 := by bv_omega
  have fourth : (p + 1 + 1 + 1).toNat = 16 + len.toNat % 4096 := by bv_omega
  have three : p + 1 + 1 + 1 = p + 3 := by bv_omega
  have four : p + 3 + 1 = p + 4 := by bv_omega
  rw [decRun_cons_accepting _ _ accepts, decByte_checksum_digit h0 rfl, if_pos (by dsimp only; omega),
    decRun_cons_accepting _ _ rfl, decByte_checksum_digit h1 rfl, if_pos second,
    decRun_cons_accepting _ _ rfl, decByte_checksum_digit h2 rfl, if_pos third,
    decRun_cons_accepting _ _ rfl, decByte_checksum_digit h3 rfl, if_neg (not_not.mpr fourth)]
  dsimp only
  rw [value, three, four]
  rfl

/-- Settles O29: the four digits one after the other, and the first bad one. -/
theorem checksumField : Obligations.ChecksumField := by
  unfold Obligations.ChecksumField
  intro s c0 c1 c2 c3 n phase pos
  refine ⟨fun w value => ?good, fun k bad here notDigit before => ?bad⟩
  case good =>
    obtain ⟨x, digits, rfl, word⟩ := decodeU16_of_hexValues value
    have run := decRun_checksum [] digits phase pos
    rw [word]
    refine congrArg Host.Outcome.next (show decOffer [c0, c1, c2, c3] s = _ from ?_)
    unfold checksumCompared at run
    by_cases sum : (x.toNat + s.dec.acc.toNat) % 65536 = 0
    · rw [if_pos sum] at run ⊢
      exact decOffer_of_decRun run rfl
    · rw [if_neg sum] at run ⊢
      exact decOffer_of_decRun_failed (accepts_of_phase phase rfl) run
  case bad =>
    have last : lastDigit s.dec = some (16 + n) := by rw [lastDigit, phase, decN_eq]
    have inside : k < 4 := by
      obtain ⟨lt, -⟩ := List.getElem?_eq_some_iff.mp here
      exact lt
    exact decOffer_bad_digit last pos (by omega) (by omega) here notDigit before

/-! ### The payload field (R78, R171) -/

/-- The two digits of payload byte `i`. -/
theorem decRun_payload_pair {c0 c1 : Byte} {v0 v1 : Nibble} (cs : List Byte) {d : DecUnit} {i : Nat}
    (digit0 : decodeNibble c0 = some v0) (digit1 : decodeNibble c1 = some v1) (phase : d.phase = .pay)
    (pos : d.pos.toNat = 13 + 2 * i) (even : d.len.toNat % 2 = 0) (inside : 2 * i + 2 ≤ d.len.toNat % 4096) :
    decRun (c0 :: c1 :: cs) d = decRun cs { d with
      phase := if 2 * i + 2 = d.len.toNat % 4096 then .chk else .pay
      pos := d.pos + 2
      acc := d.acc + c0.setWidth 16 + c1.setWidth 16
      hi := v0
      plen := BitVec.ofNat 11 (i + 1)
      rpbuf := Memory.writeIn Config.rpbufSize d.rpbuf i (v0 ++ v1) } := by
  have accepts := accepts_of_phase phase rfl
  obtain ⟨ph, p, _, _, _, _, _, _, len, _, _, _, _⟩ := d
  dsimp only at pos even inside
  subst phase
  have next : (p + 1).toNat = 14 + 2 * i := by bv_omega
  have firstOffset : p.toNat - 13 = 2 * i := by omega
  have secondOffset : (p + 1).toNat - 13 = 2 * i + 1 := by omega
  have half : (2 * i + 1) / 2 = i := by omega
  have two : p + 1 + 1 = p + 2 := by bv_omega
  have notLast : p.toNat ≠ 12 + len.toNat % 4096 := by omega
  have last : (p + 1).toNat = 12 + len.toNat % 4096 ↔ 2 * i + 2 = len.toNat % 4096 := by omega
  rw [decRun_cons_accepting _ _ accepts, decByte_payload_digit digit0 rfl]
  dsimp only
  rw [if_neg notLast, decRun_cons_accepting _ _ rfl, decByte_payload_digit digit1 rfl]
  dsimp only [rpbufAfterDigit]
  rw [firstOffset, secondOffset, two, half, if_pos (show 2 * i % 2 = 0 by omega),
    if_neg (show ¬(2 * i + 1) % 2 = 0 by omega)]
  simp only [last, if_pos (show 2 * i % 2 = 0 by omega), if_neg (show ¬(2 * i + 1) % 2 = 0 by omega)]

theorem byteAt_two {c0 c1 : Byte} {v0 v1 : Nibble} (cs : List Byte) (digit0 : decodeNibble c0 = some v0)
    (digit1 : decodeNibble c1 = some v1) : byteAt (c0 :: c1 :: cs) 0 = v0 ++ v1 := by
  simp [byteAt, decodeByte, digit0, digit1, joinNibbles_append]

theorem byteAt_drop (raw : List Byte) (i j : Nat) : byteAt (raw.drop i) j = byteAt raw (i + j) := by
  simp only [byteAt, List.getElem?_drop, Nat.add_assoc]

/-- The payload from byte `i` on, digits good: every byte from `i` on is the pair of its digits, and the checksum is
next. -/
theorem decRun_payload {chars : List Byte} {pairs : Nat} (cs : List Byte) {d : DecUnit} {i : Nat}
    (phase : d.phase = .pay) (pos : d.pos.toNat = 13 + 2 * i) (even : d.len.toNat % 2 = 0)
    (whole : 2 * i + 2 * (pairs + 1) = d.len.toNat % 4096) (length : chars.length = 2 * (pairs + 1))
    (digits : ∀ c ∈ chars, isHex c = true) :
    ∃ m hi, decRun (chars ++ cs) d = decRun cs { d with
        phase := .chk, pos := BitVec.ofNat 13 (13 + d.len.toNat % 4096)
        acc := d.acc + BitVec.ofNat 16 (sumBytes chars)
        hi := hi, plen := BitVec.ofNat 11 (d.len.toNat % 4096 / 2), rpbuf := m } ∧
      ∀ k, Memory.read m k =
        if i ≤ k ∧ k < d.len.toNat % 4096 / 2 then some (byteAt chars (2 * (k - i))) else Memory.read d.rpbuf k := by
  induction pairs generalizing chars d i with
  | zero =>
    obtain ⟨c0, c1, rfl⟩ := List.length_eq_two.mp length
    obtain ⟨v0, digit0⟩ := Option.isSome_iff_exists.mp (digits c0 (by simp))
    obtain ⟨v1, digit1⟩ := Option.isSome_iff_exists.mp (digits c1 (by simp))
    have pair := decRun_payload_pair cs digit0 digit1 phase pos even (by omega)
    refine ⟨Memory.writeIn Config.rpbufSize d.rpbuf i (v0 ++ v1), v0, pair.trans (congrArg (decRun cs) ?_),
      fun k => ?_⟩
    · have stands : d.pos + 2 = BitVec.ofNat 13 (13 + d.len.toNat % 4096) := by bv_omega
      have sum : d.acc + c0.setWidth 16 + c1.setWidth 16 = d.acc + BitVec.ofNat 16 (sumBytes [c0, c1]) := by
        simp only [sumBytes, List.map_cons, List.map_nil, List.sum_cons, List.sum_nil]
        bv_omega
      have bytes : i + 1 = d.len.toNat % 4096 / 2 := by omega
      rw [if_pos (by omega), stands, sum, bytes]
    · rw [read_writeIn]
      by_cases here : k = i
      · subst here
        rw [if_pos ⟨rfl, by rw [Config.rpbufSize]; omega⟩, if_pos (by omega), Nat.sub_self, byteAt_two [] digit0 digit1]
      · rw [if_neg (by omega), if_neg (by omega)]
  | succ pairs ih =>
    obtain ⟨c0, c1, rest, rfl⟩ : ∃ c0 c1 rest, chars = c0 :: c1 :: rest := by
      match chars, length with
      | c0 :: c1 :: rest, _ => exact ⟨c0, c1, rest, rfl⟩
    obtain ⟨v0, digit0⟩ := Option.isSome_iff_exists.mp (digits c0 (by simp))
    obtain ⟨v1, digit1⟩ := Option.isSome_iff_exists.mp (digits c1 (by simp))
    have pair := decRun_payload_pair (rest ++ cs) digit0 digit1 phase pos even (by omega)
    rw [if_neg (by omega)] at pair
    have next : (d.pos + 2).toNat = 13 + 2 * (i + 1) := by bv_omega
    simp only [List.length_cons] at length
    obtain ⟨m, hi, run, reads⟩ := ih (chars := rest) (i := i + 1) (d := { d with
      phase := .pay, pos := d.pos + 2, acc := d.acc + c0.setWidth 16 + c1.setWidth 16, hi := v0
      plen := BitVec.ofNat 11 (i + 1), rpbuf := Memory.writeIn Config.rpbufSize d.rpbuf i (v0 ++ v1) })
      rfl next even (by dsimp only; omega) (by omega) fun c mem => digits c (by simp [mem])
    refine ⟨m, hi, (pair.trans run).trans (congrArg (decRun cs) ?_), fun k => ?_⟩
    · have sum : d.acc + c0.setWidth 16 + c1.setWidth 16 + BitVec.ofNat 16 (sumBytes rest) =
          d.acc + BitVec.ofNat 16 (sumBytes (c0 :: c1 :: rest)) := by
        simp only [sumBytes, List.map_cons, List.sum_cons]
        bv_omega
      rw [sum]
    · rw [reads, read_writeIn]
      dsimp only
      by_cases here : k = i
      · subst here
        rw [if_neg (by omega), if_pos ⟨rfl, by rw [Config.rpbufSize]; omega⟩, if_pos (by omega), Nat.sub_self,
          byteAt_two rest digit0 digit1]
      by_cases later : i + 1 ≤ k ∧ k < d.len.toNat % 4096 / 2
      · have offset : 2 + 2 * (k - (i + 1)) = 2 * (k - i) := by omega
        rw [if_pos later, if_pos (by omega), ← offset, ← byteAt_drop]
        rfl
      · rw [if_neg later, if_neg (by omega), if_neg (by omega)]

/-- Settles O28: pair by pair, and the first bad digit. -/
theorem payloadField : Obligations.PayloadField := by
  unfold Obligations.PayloadField
  intro s chars n phase pos length even positive
  refine ⟨fun digits => ?good, fun k bad here notDigit before => ?bad⟩
  case good =>
    have hex (c : Byte) (mem : c ∈ chars) : isHex c = true := (hexValue_ne_none_iff c).mp (digits c mem)
    have stands : s.dec.pos.toNat = 13 := congrArg BitVec.toNat pos
    obtain ⟨m, hi, run, reads⟩ := decRun_payload (pairs := n / 2 - 1) [] (i := 0) phase stands (by omega)
      (show 2 * 0 + 2 * (n / 2 - 1 + 1) = n by omega) (by omega) hex
    rw [List.append_nil] at run
    refine ⟨m, hi, congrArg _ (decOffer_of_decRun run rfl), fun k => (reads k).trans ?_⟩
    by_cases inside : k < n / 2
    · have digitsHere : DigitsAt chars (2 * k) 2 := fun j hj => by
        have lt : 2 * k + j < chars.length := by omega
        exact ⟨_, List.getElem?_eq_getElem lt, hex _ (List.getElem_mem lt)⟩
      rw [if_pos ⟨k.zero_le, inside⟩, if_pos inside, hexValues_byteAt digitsHere]
      simp
    · rw [if_neg (fun ⟨_, lt⟩ => inside lt), if_neg inside]
  case bad =>
    have last : lastDigit s.dec = some (16 + n) := by rw [lastDigit, phase, decN_eq]
    have inside : k < n := by
      obtain ⟨lt, -⟩ := List.getElem?_eq_some_iff.mp here
      omega
    exact decOffer_bad_digit last (congrArg BitVec.toNat pos) (by decide) (show 13 + k ≤ 16 + n by omega) here notDigit
      before

end Sys2Proof.Proofs
end

section
/-! PROOFS. `Decode` on a byte list, from the run of the stream parser to the functional level's verdict (R160, R175). -/

namespace Sys2Proof.Proofs

open Sys2Proof Sys2Proof.Machine Sys2Proof.Safety Sys2Proof.Laws

/-! ### What the functional level's verdict says of a run -/

/-- A run of the parser that the functional level refuses with `e` at `pos`: the bytes ended before a check could be made,
or the check failed (R161). -/
def RunRefused (e : ErrorName) (pos : Nat) (d : DecUnit) : Prop :=
  if e = .truncatedFrame then decAccepts d.phase = true ∧ d.pos.toNat = pos
  else ∃ t, d = decFailed e t ∧ t.pos.toNat = pos

theorem runRefused_truncated {d : DecUnit} {pos : Nat} (accepts : decAccepts d.phase = true) (stands : d.pos.toNat = pos) :
    RunRefused .truncatedFrame pos d := by
  rw [RunRefused, if_pos rfl]
  exact ⟨accepts, stands⟩

theorem runRefused_failed {d : DecUnit} {pos : Nat} {e : ErrorName} (raised : e ≠ .truncatedFrame)
    (stands : d.pos.toNat = pos) : RunRefused e pos (decFailed e d) := by
  rw [RunRefused, if_neg raised]
  exact ⟨d, rfl, stands⟩

/-- A decoder that has accepted a frame of `pos` bytes with this reply, its `RPBUF` having been `m` (R173). -/
structure RunAccepted (reply : Reply) (pos : Nat) (m : Memory) (d : DecUnit) : Prop where
  phase : d.phase = .ok
  err : d.err = none
  stands : d.pos.toNat = pos
  ver : d.ver = reply.version
  adr : d.adr = reply.address
  dev : d.dev = reply.deviceType
  fn : d.fn = reply.status
  plen : d.plen.toNat = reply.payload.length
  stored : Stored d.rpbuf reply.payload
  above : ∀ k, d.plen.toNat ≤ k → Memory.read d.rpbuf k = Memory.read m k

/-- A run over `raw` has the functional level's verdict. -/
def RunMatches (raw : List Byte) (m : Memory) (run : DecUnit × List Byte) : DecodeVerdict → Prop
  | .ok reply pos => RunAccepted reply pos m run.1 ∧ run.2 = raw.drop pos
  | .err e pos => RunRefused e pos run.1

/-! ### Fields in place -/

theorem drop_eq_cons_of_getElem? {raw : List Byte} {i : Nat} {c : Byte} (h : raw[i]? = some c) :
    raw.drop i = c :: raw.drop (i + 1) := by
  obtain ⟨lt, rfl⟩ := List.getElem?_eq_some_iff.mp h
  exact List.drop_eq_getElem_cons lt

theorem drop_eq_pair {raw : List Byte} {i : Nat} (h : DigitsAt raw i 2) :
    ∃ c0 c1 v0 v1, raw.drop i = c0 :: c1 :: raw.drop (i + 2) ∧ decodeNibble c0 = some v0 ∧ decodeNibble c1 = some v1 ∧
      byteAt raw i = v0 ++ v1 ∧ sumBytes ((raw.drop i).take 2) = c0.toNat + c1.toNat := by
  obtain ⟨c0, h0, hex0⟩ := h 0 (by decide)
  obtain ⟨c1, h1, hex1⟩ := h 1 (by decide)
  obtain ⟨v0, digit0⟩ := Option.isSome_iff_exists.mp hex0
  obtain ⟨v1, digit1⟩ := Option.isSome_iff_exists.mp hex1
  have chars : raw.drop i = c0 :: c1 :: raw.drop (i + 2) :=
    (drop_eq_cons_of_getElem? h0).trans (congrArg (c0 :: ·) (drop_eq_cons_of_getElem? h1))
  refine ⟨c0, c1, v0, v1, chars, digit0, digit1, ?_, by simp [chars, sumBytes]⟩
  rw [show i = i + 0 from rfl, ← byteAt_drop, chars, byteAt_two _ digit0 digit1]

theorem drop_eq_word {raw : List Byte} {i : Nat} (h : DigitsAt raw i 4) :
    ∃ c0 c1 c2 c3, raw.drop i = c0 :: c1 :: c2 :: c3 :: raw.drop (i + 4) ∧
      decodeU16 c0 c1 c2 c3 = some (wordAt raw i) ∧
      sumBytes ((raw.drop i).take 4) = c0.toNat + c1.toNat + c2.toNat + c3.toNat := by
  obtain ⟨c0, h0, hex0⟩ := h 0 (by decide)
  obtain ⟨c1, h1, hex1⟩ := h 1 (by decide)
  obtain ⟨c2, h2, hex2⟩ := h 2 (by decide)
  obtain ⟨c3, h3, hex3⟩ := h 3 (by decide)
  have chars : raw.drop i = c0 :: c1 :: c2 :: c3 :: raw.drop (i + 4) :=
    (drop_eq_cons_of_getElem? h0).trans (congrArg (c0 :: ·) ((drop_eq_cons_of_getElem? h1).trans
      (congrArg (c1 :: ·) ((drop_eq_cons_of_getElem? h2).trans (congrArg (c2 :: ·) (drop_eq_cons_of_getElem? h3))))))
  obtain ⟨w, hw⟩ := Option.isSome_iff_exists.mp
    (show (decodeU16 c0 c1 c2 c3).isSome = true by rw [isSome_decodeU16, hex0, hex1, hex2, hex3]; rfl)
  rw [Nat.add_zero] at h0
  exact ⟨c0, c1, c2, c3, chars, by simp [wordAt, h0, h1, h2, h3, hw], by simp [chars, sumBytes]; omega⟩

theorem sumBytes_take_drop (raw : List Byte) (i m n : Nat) :
    sumBytes ((raw.drop i).take (m + n)) = sumBytes ((raw.drop i).take m) + sumBytes ((raw.drop (i + m)).take n) := by
  rw [List.take_add, sumBytes_append, List.drop_drop]

/-! ### Runs of digits that stop (R164) -/

/-- A run of digits in which one is missing or bad. -/
theorem decRun_scan {raw : List Byte} {i count j m : Nat} {e : ErrorName} {d : DecUnit} (last : lastDigit d = some m)
    (pos : d.pos.toNat = i) (lower : 1 ≤ i) (upper : i + count = m + 1) (h : scanHex raw i count = some (e, j)) :
    RunRefused e j (decRun (raw.drop i) d).1 := by
  have phase := phase_of_lastDigit last
  have accepts := accepts_of_digit_phase phase
  induction count generalizing i d with
  | zero => cases h
  | succ count ih =>
    unfold scanHex at h
    cases here : raw[i]? with
    | none =>
      rw [here] at h
      cases h
      rw [List.drop_eq_nil_of_le (List.getElem?_eq_none_iff.mp here)]
      exact runRefused_truncated accepts pos
    | some c =>
      simp only [here] at h
      rw [drop_eq_cons_of_getElem? here, decRun_cons_accepting _ _ accepts]
      cases digit : decodeNibble c with
      | none =>
        simp only [isHex, digit, Option.isSome_none, Bool.false_eq_true, if_false] at h
        cases h
        rw [decByte_of_not_digit digit phase, decRun_at_rest _ rfl]
        exact runRefused_failed (by decide) pos
      | some v =>
        simp only [isHex, digit, Option.isSome_some, if_true] at h
        have more : count ≠ 0 := by rintro rfl; cases h
        obtain ⟨next, advanced⟩ := lastDigit_decByte digit last (by omega) (by omega)
        exact ih next (by omega) (by omega) (by omega) h (phase_of_lastDigit next)
          (accepts_of_digit_phase (phase_of_lastDigit next))

/-! ### Runs of digits that are all there -/

section
variable {raw : List Byte} {d : DecUnit}

/-- One byte of the header in place, at the offset of its register. -/
theorem decRun_header_byte {i : Nat} (digits : DigitsAt raw i 2) (phase : d.phase = .hdr)
    (pos : d.pos = 1 ∨ d.pos = 3 ∨ d.pos = 5 ∨ d.pos = 7) :
    decRun (raw.drop i) d = decRun (raw.drop (i + 2)) { d with
      pos := d.pos + 2
      acc := d.acc + BitVec.ofNat 16 (sumBytes ((raw.drop i).take 2))
      hi := highNibble (byteAt raw i)
      ver := if d.pos = 1 then byteAt raw i else d.ver
      adr := if d.pos = 3 then byteAt raw i else d.adr
      dev := if d.pos = 5 then byteAt raw i else d.dev
      fn := if d.pos = 7 then byteAt raw i else d.fn } := by
  obtain ⟨c0, c1, v0, v1, chars, digit0, digit1, value, sum⟩ := drop_eq_pair digits
  have added : d.acc + c0.setWidth 16 + c1.setWidth 16 = d.acc + BitVec.ofNat 16 (c0.toNat + c1.toNat) := by bv_omega
  have high : highNibble (v0 ++ v1) = v0 := by rw [← joinNibbles_append, highNibble_joinNibbles]
  rw [sum, chars, decRun_header_pair _ digit0 digit1 phase pos, value, added, high]

theorem decRun_ver (digits : DigitsAt raw 1 2) (phase : d.phase = .hdr) (pos : d.pos = 1) :
    decRun (raw.drop 1) d = decRun (raw.drop 3) { d with
      pos := 3, acc := d.acc + BitVec.ofNat 16 (sumBytes ((raw.drop 1).take 2)), hi := highNibble (byteAt raw 1)
      ver := byteAt raw 1 } := by
  rw [decRun_header_byte digits phase (.inl pos)]
  simp [pos]

theorem decRun_adr (digits : DigitsAt raw 3 2) (phase : d.phase = .hdr) (pos : d.pos = 3) :
    decRun (raw.drop 3) d = decRun (raw.drop 5) { d with
      pos := 5, acc := d.acc + BitVec.ofNat 16 (sumBytes ((raw.drop 3).take 2)), hi := highNibble (byteAt raw 3)
      adr := byteAt raw 3 } := by
  rw [decRun_header_byte digits phase (.inr (.inl pos))]
  simp [pos]

theorem decRun_dev (digits : DigitsAt raw 5 2) (phase : d.phase = .hdr) (pos : d.pos = 5) :
    decRun (raw.drop 5) d = decRun (raw.drop 7) { d with
      pos := 7, acc := d.acc + BitVec.ofNat 16 (sumBytes ((raw.drop 5).take 2)), hi := highNibble (byteAt raw 5)
      dev := byteAt raw 5 } := by
  rw [decRun_header_byte digits phase (.inr (.inr (.inl pos)))]
  simp [pos]

theorem decRun_fn (digits : DigitsAt raw 7 2) (phase : d.phase = .hdr) (pos : d.pos = 7) :
    decRun (raw.drop 7) d = decRun (raw.drop 9) { d with
      pos := 9, acc := d.acc + BitVec.ofNat 16 (sumBytes ((raw.drop 7).take 2)), hi := highNibble (byteAt raw 7)
      fn := byteAt raw 7 } := by
  rw [decRun_header_byte digits phase (.inr (.inr (.inr pos)))]
  simp [pos]

/-- The four one-byte fields of the header. -/
theorem decRun_header (digits : DigitsAt raw 1 8) (phase : d.phase = .hdr) (pos : d.pos = 1) :
    decRun (raw.drop 1) d = decRun (raw.drop 9) { d with
      pos := 9, acc := d.acc + BitVec.ofNat 16 (sumBytes ((raw.drop 1).take 8)), hi := highNibble (byteAt raw 7)
      ver := byteAt raw 1, adr := byteAt raw 3, dev := byteAt raw 5, fn := byteAt raw 7 } := by
  have sum : sumBytes ((raw.drop 1).take 8) = sumBytes ((raw.drop 1).take 2) + sumBytes ((raw.drop 3).take 2) +
      sumBytes ((raw.drop 5).take 2) + sumBytes ((raw.drop 7).take 2) := by
    rw [sumBytes_take_drop raw 1 6 2, sumBytes_take_drop raw 1 4 2, sumBytes_take_drop raw 1 2 2]
  rw [decRun_ver (digits.sub (by omega) (by omega)) phase pos, decRun_adr, decRun_dev, decRun_fn, sum]
  · dsimp only
    rw [BitVec.ofNat_add, BitVec.ofNat_add, BitVec.ofNat_add, BitVec.add_assoc, BitVec.add_assoc, BitVec.add_assoc,
      BitVec.add_assoc, BitVec.add_assoc]
  · exact digits.sub (by omega) (by omega)
  · exact phase
  · rfl
  · exact digits.sub (by omega) (by omega)
  · exact phase
  · rfl
  · exact digits.sub (by omega) (by omega)
  · exact phase
  · rfl

/-- The length field in place. -/
theorem decRun_length_field (digits : DigitsAt raw 9 4) (phase : d.phase = .hdr) (pos : d.pos = 9) :
    decRun (raw.drop 9) d = decRun (raw.drop 13) (lengthEvaluated (wordAt raw 9) { d with
      acc := d.acc + BitVec.ofNat 16 (sumBytes ((raw.drop 9).take 4)) }) := by
  obtain ⟨c0, c1, c2, c3, chars, word, sum⟩ := drop_eq_word digits
  have added : d.acc + c0.setWidth 16 + c1.setWidth 16 + c2.setWidth 16 + c3.setWidth 16 =
      d.acc + BitVec.ofNat 16 (c0.toNat + c1.toNat + c2.toNat + c3.toNat) := by bv_omega
  rw [sum, chars, decRun_length _ word phase pos, added]

/-- The checksum field in place. -/
theorem decRun_checksum_field {n : Nat} (digits : DigitsAt raw (13 + n) 4) (phase : d.phase = .chk)
    (pos : d.pos.toNat = 13 + n) (length : d.len.toNat % 4096 = n) :
    decRun (raw.drop (13 + n)) d = decRun (raw.drop (17 + n)) (checksumCompared (wordAt raw (13 + n)) d) := by
  obtain ⟨c0, c1, c2, c3, chars, word, -⟩ := drop_eq_word digits
  rw [chars, decRun_checksum _ word phase (by omega), show 13 + n + 4 = 17 + n by omega]

/-- The payload field in place, an empty one included. -/
theorem decRun_payload_field {n : Nat} (digits : DigitsAt raw 13 n) (length : d.len.toNat % 4096 = n)
    (even : n % 2 = 0) (phase : d.phase = if n = 0 then .chk else .pay) (pos : d.pos = 13) (plen : d.plen = 0) :
    ∃ m hi, decRun (raw.drop 13) d = decRun (raw.drop (13 + n)) { d with
        phase := .chk, pos := BitVec.ofNat 13 (13 + n), acc := d.acc + BitVec.ofNat 16 (sumBytes ((raw.drop 13).take n))
        hi := hi, plen := BitVec.ofNat 11 (n / 2), rpbuf := m } ∧
      ∀ k, Memory.read m k = if k < n / 2 then some (byteAt raw (13 + 2 * k)) else Memory.read d.rpbuf k := by
  rcases Nat.eq_zero_or_pos n with rfl | positive
  · refine ⟨d.rpbuf, d.hi, ?_, fun k => rfl⟩
    obtain ⟨ph, p, _, _, _, _, _, _, _, _, pl, _, _⟩ := d
    subst pos plen
    rw [if_pos rfl] at phase
    subst phase
    simp [sumBytes]
  · rw [if_neg (by omega)] at phase
    have inside (k : Nat) (lt : k < n) : 13 + k < raw.length := by
      obtain ⟨c, here, -⟩ := digits k lt
      exact (List.getElem?_eq_some_iff.mp here).1
    have enough := inside (n - 1) (by omega)
    have taken : ((raw.drop 13).take n).length = n := by simp; omega
    have hex (c : Byte) (mem : c ∈ (raw.drop 13).take n) : isHex c = true := by
      obtain ⟨k, lt, rfl⟩ := List.getElem_of_mem mem
      obtain ⟨c, here, digit⟩ := digits k (by omega)
      have same : ((raw.drop 13).take n)[k] = c := by
        obtain ⟨_, rfl⟩ := List.getElem?_eq_some_iff.mp here
        simp
      rwa [same]
    obtain ⟨m, hi, run, reads⟩ := decRun_payload (pairs := n / 2 - 1) (raw.drop (13 + n)) (i := 0) phase
      (congrArg BitVec.toNat pos) (by omega) (by omega) (by omega) hex
    rw [← List.drop_drop, List.take_append_drop, length] at run
    refine ⟨m, hi, by rw [run, List.drop_drop], fun k => (reads k).trans ?_⟩
    rw [length]
    by_cases here : k < n / 2
    · have inField : byteAt ((raw.drop 13).take n) (2 * k) = byteAt (raw.drop 13) (2 * k) := by
        simp only [byteAt]
        rw [List.getElem?_take_of_lt (by omega), List.getElem?_take_of_lt (by omega)]
      rw [if_pos ⟨k.zero_le, here⟩, if_pos here, Nat.sub_zero, inField, byteAt_drop]
    · rw [if_neg (fun ⟨_, lt⟩ => here lt), if_neg here]
end

/-! ### The run and the verdict, check by check (R160, R175) -/

/-- What the parser holds of the bytes it has taken, `count` of them in the sum (R127, R169). -/
structure HeaderHeld (raw : List Byte) (count : Nat) (d : DecUnit) : Prop where
  ver : d.ver = byteAt raw 1
  adr : d.adr = byteAt raw 3
  dev : d.dev = byteAt raw 5
  fn : d.fn = byteAt raw 7
  acc : d.acc = BitVec.ofNat 16 (sumBytes ((raw.drop 1).take count))
  err : d.err = none

/-- Steps 5 to 7. -/
theorem runMatches_decodeTail {raw : List Byte} {m : Memory} {n : Nat} {d : DecUnit} (held : HeaderHeld raw (12 + n) d)
    (bound : n < 4096) (digits : DigitsAt raw (13 + n) 4) (phase : d.phase = .chk) (pos : d.pos.toNat = 13 + n)
    (length : d.len.toNat % 4096 = n) (plen : d.plen.toNat = n / 2)
    (reads : ∀ k, Memory.read d.rpbuf k = if k < n / 2 then some (byteAt raw (13 + 2 * k)) else Memory.read m k) :
    RunMatches raw m (decRun (raw.drop (13 + n)) d) (decodeTail raw n) := by
  obtain ⟨ver, adr, dev, fn, acc, err⟩ := held
  have passes : ((wordAt raw (13 + n)).toNat + d.acc.toNat) % 65536 = 0 ↔
      frameChecksum ((raw.drop 1).take (12 + n)) = wordAt raw (13 + n) := by
    have := frameChecksum_eq_iff ((raw.drop 1).take (12 + n)) (wordAt raw (13 + n))
    rw [eq_comm, this, acc, BitVec.toNat_ofNat]
    omega
  rw [decRun_checksum_field digits phase pos length]
  unfold checksumCompared decodeTail
  by_cases checksum : frameChecksum ((raw.drop 1).take (12 + n)) = wordAt raw (13 + n)
  · rw [if_pos (passes.mpr checksum), if_neg (not_not.mpr checksum)]
    have stands : (d.pos + 4).toNat = 17 + n := by bv_omega
    cases here : raw[17 + n]? with
    | none =>
      rw [List.drop_eq_nil_of_le (List.getElem?_eq_none_iff.mp here)]
      exact runRefused_truncated rfl stands
    | some c =>
      rw [drop_eq_cons_of_getElem? here, decRun_cons_accepting _ _ rfl, decByte_eoi c rfl]
      dsimp only
      by_cases marker : c = Config.eoi
      · rw [if_pos (show c = 0x0D from marker), if_neg (not_not.mpr marker), decRun_at_rest _ rfl]
        refine ⟨⟨rfl, err, ?_, ver, adr, dev, fn, by simpa using plen, fun k lt => ?_, fun k above => ?_⟩,
          congrArg (raw.drop ·) (by omega)⟩
        · dsimp only; bv_omega
        · simp only [List.length_map, List.length_range] at lt
          simp only [reads, if_pos lt, List.getElem?_map, List.getElem?_range lt, Option.map_some]
        · dsimp only at above ⊢
          rw [reads, if_neg (by omega)]
      · rw [if_neg (show ¬c = 0x0D from marker), if_pos marker, decRun_at_rest _ rfl]
        exact runRefused_failed (by decide) stands
  · rw [if_neg (passes.not.mpr checksum), if_pos checksum, decRun_at_rest _ rfl]
    exact runRefused_failed (by decide) (show (d.pos + 3).toNat = 16 + n by bv_omega)

/-- Steps 3 and 4, and what follows. -/
theorem runMatches_decodeBody {raw : List Byte} {m : Memory} {d : DecUnit} (old : d.rpbuf = m) (held : HeaderHeld raw 8 d) (digits : DigitsAt raw 9 4)
    (phase : d.phase = .hdr) (pos : d.pos = 9) (plen : d.plen = 0) :
    RunMatches raw m (decRun (raw.drop 9) d) (decodeBody raw) := by
  subst old
  obtain ⟨ver, adr, dev, fn, acc, err⟩ := held
  rw [decRun_length_field digits phase pos]
  unfold lengthEvaluated decodeBody
  rw [lengthFieldCheck_eq]
  by_cases nibble : (wordAt raw 9).toNat / 4096 = nibbleCheck ((wordAt raw 9).toNat % 4096)
  case neg =>
    rw [if_pos nibble, if_neg nibble, decRun_at_rest _ rfl]
    exact runRefused_failed (by decide) rfl
  rw [if_neg (not_not.mpr nibble), if_pos nibble]
  have length : (BitVec.ofNat 12 (wordAt raw 9).toNat).toNat = (wordAt raw 9).toNat % 4096 := BitVec.toNat_ofNat _ _
  have parity : (wordAt raw 9).toNat % 4096 % 2 = (wordAt raw 9).toNat % 2 := by omega
  dsimp only
  rw [length, parity]
  by_cases odd : (wordAt raw 9).toNat % 2 = 1
  · rw [if_pos odd, if_pos odd, decRun_at_rest _ rfl]
    exact runRefused_failed (by decide) rfl
  rw [if_neg odd, if_neg odd]
  generalize hn : (wordAt raw 9).toNat % 4096 = n at *
  cases scan : scanHex raw 13 (n + 4) with
  | some refused =>
    obtain ⟨e, j⟩ := refused
    refine decRun_scan (m := 16 + n) ?_ rfl (by decide) (by omega) scan
    dsimp only [lastDigit]
    split_ifs <;> simp only [decN_eq, hn]
  | none =>
    have rest : DigitsAt raw 13 (n + 4) := scanHex_eq_none_iff.mp scan
    obtain ⟨m, hi, run, reads⟩ := decRun_payload_field (n := n) (d := { d with
        phase := if n = 0 then .chk else .pay, pos := 13
        acc := d.acc + BitVec.ofNat 16 (sumBytes ((raw.drop 9).take 4)), len := wordAt raw 9 })
      (rest.sub le_rfl (by omega)) hn (by omega) rfl rfl plen
    rw [run]
    refine runMatches_decodeTail ⟨ver, adr, dev, fn, ?_, err⟩ (by omega) (rest.sub (by omega) (by omega)) rfl ?_ hn ?_ reads
    · dsimp only
      rw [show 12 + n = 8 + 4 + n by omega, sumBytes_take_drop, sumBytes_take_drop, acc, BitVec.ofNat_add,
        BitVec.ofNat_add]
    · exact (BitVec.toNat_ofNat _ _).trans (Nat.mod_eq_of_lt (by omega))
    · exact (BitVec.toNat_ofNat _ _).trans (Nat.mod_eq_of_lt (by omega))

/-- A decode that runs on a list has the functional level's verdict. -/
theorem runMatches_decodeFrame (raw : List Byte) (d : DecUnit) :
    RunMatches raw d.rpbuf (decRun raw (decStart d)) (decodeFrame raw) := by
  unfold decodeFrame
  cases raw with
  | nil => exact runRefused_truncated rfl rfl
  | cons c cs =>
    rw [decRun_cons_accepting _ _ rfl, decByte_soi c rfl, List.getElem?_cons_zero]
    dsimp only
    by_cases marker : c = Config.soi
    case neg =>
      rw [if_neg (show ¬c = 0x7E from marker), if_pos marker, decRun_at_rest _ rfl]
      exact runRefused_failed (by decide) rfl
    rw [if_pos (show c = 0x7E from marker), if_neg (not_not.mpr marker)]
    cases scan : scanHex (c :: cs) 1 12 with
    | some refused =>
      obtain ⟨e, j⟩ := refused
      exact decRun_scan (d := { decStart d with phase := .hdr, pos := (decStart d).pos + 1 }) (m := 12) rfl rfl le_rfl
        rfl scan
    | none =>
      have digits : DigitsAt (c :: cs) 1 12 := scanHex_eq_none_iff.mp scan
      have header := decRun_header (d := { decStart d with phase := .hdr, pos := (decStart d).pos + 1 })
        (digits.sub le_rfl (by decide)) rfl rfl
      rw [List.drop_one, List.tail_cons] at header
      rw [header]
      exact runMatches_decodeBody rfl ⟨rfl, rfl, rfl, rfl, BitVec.zero_add _, rfl⟩
        (digits.sub (by decide) (by decide)) rfl rfl rfl

/-- Settles O14: the run, and `dec_end` where the bytes end early. -/
theorem decodeAgreesWithFunction : Obligations.DecodeAgreesWithFunction := by
  unfold Obligations.DecodeAgreesWithFunction
  intro s
  have run := runMatches_decodeFrame s.ports.deBytes s.dec
  have rest := decRun_rest s.ports.deBytes (decStart s.dec)
  have leaves : exec .decode s = execDecode s := rfl
  rw [leaves]
  unfold execDecode
  generalize decRun s.ports.deBytes (decStart s.dec) = r at run rest ⊢
  obtain ⟨d, left⟩ := r
  cases verdict : decodeFrame s.ports.deBytes with
  | ok reply n =>
    rw [verdict] at run
    obtain ⟨accepted, leftover⟩ := run
    obtain rfl : left = s.ports.deBytes.drop n := leftover
    obtain ⟨phase, err, stands, ver, adr, dev, fn, plen, stored, above⟩ : RunAccepted reply n s.dec.rpbuf d := accepted
    have ended : decEnd d = d := decEnd_at_rest (by rw [phase]; rfl)
    have bytes := memory_bytes_eq_of_stored (buffer := 2) (epoch := s.epoch) stored
    rw [← plen] at bytes
    refine ⟨d, _, .ok (.reply reply), ?_, rfl, rfl, phase, err, stands, ver, adr, dev, fn, plen, stored, above⟩
    simp only [ended, decResult, phase, decReply, bytes, ver, adr, dev, fn]
  | err e pos =>
    rw [verdict] at run
    obtain ⟨taken, suffix⟩ := rest
    have tail : left <:+ s.ports.deBytes := ⟨taken, suffix.symm⟩
    change RunRefused e pos d at run
    unfold RunRefused at run
    split at run
    next truncated =>
      obtain ⟨accepts, stands⟩ := run
      have ended : decEnd d = decFailed .truncatedFrame d := by rw [decEnd, if_pos accepts, decTakeError_eq]
      refine ⟨decFailed .truncatedFrame d, left, .err e, ?_, rfl, tail, rfl, congrArg some truncated.symm, stands,
        read_nil⟩
      dsimp only
      rw [ended, truncated]
      rfl
    next raised =>
      obtain ⟨t, rfl, stands⟩ := run
      exact ⟨decFailed e t, left, .err e, rfl, rfl, tail, rfl, rfl, stands, read_nil⟩

end Sys2Proof.Proofs
end

section
/-! PROOFS. Accepted frames with one byte changed or with their end missing: which check refuses them, and where (R161,
R179). -/

namespace Sys2Proof.Proofs

open Sys2Proof Sys2Proof.Machine Sys2Proof.Safety Sys2Proof.Laws

/-! ### Where a scan stops -/

theorem scanHex_skip {raw : List Byte} {i k : Nat} (digits : DigitsAt raw i k) (count : Nat) :
    scanHex raw i (k + count) = scanHex raw (i + k) count := by
  induction k generalizing i with
  | zero => rw [Nat.zero_add, Nat.add_zero]
  | succ k ih =>
    obtain ⟨c, here, hex⟩ := digits 0 k.succ_pos
    rw [Nat.add_zero] at here
    rw [show k + 1 + count = k + count + 1 by omega, scanHex]
    simp only [here, hex, if_true]
    rw [ih (digits.sub (by omega) (by omega)), show i + 1 + k = i + (k + 1) by omega]

theorem scanHex_bad {raw : List Byte} {i j count : Nat} {bad : Byte} (digits : DigitsAt raw i (j - i)) (lower : i ≤ j)
    (upper : j < i + count) (here : raw[j]? = some bad) (notDigit : isHex bad = false) :
    scanHex raw i count = some (.invalidHexDigit, j) := by
  have at_j : i + (j - i) = j := by omega
  rw [show count = j - i + (i + count - j - 1 + 1) by omega, scanHex_skip digits, at_j, scanHex]
  simp [here, notDigit]

theorem scanHex_missing {raw : List Byte} {i j count : Nat} (digits : DigitsAt raw i (j - i)) (lower : i ≤ j)
    (upper : j < i + count) (missing : raw[j]? = none) : scanHex raw i count = some (.truncatedFrame, j) := by
  have at_j : i + (j - i) = j := by omega
  rw [show count = j - i + (i + count - j - 1 + 1) by omega, scanHex_skip digits, at_j, scanHex]
  simp [missing]

/-! ### Decode up to the check that decides -/

/-- The length word passes and gives `n`, which is even. -/
def LengthIs (raw : List Byte) (n : Nat) : Prop :=
  ∃ l : Len12, lengthFieldCheck (wordAt raw 9) = some l ∧ l.toNat = n ∧ n % 2 = 0

section
variable {raw : List Byte} {n : Nat}

theorem decodeFrame_of_header_scan {e : ErrorName} {j : Nat} (soi : raw[0]? = some Config.soi)
    (scan : scanHex raw 1 12 = some (e, j)) : decodeFrame raw = .err e j := by
  simp [decodeFrame, soi, scan]

theorem decodeFrame_of_length_refused (soi : raw[0]? = some Config.soi) (digits : DigitsAt raw 1 12)
    (refused : lengthFieldCheck (wordAt raw 9) = none) : decodeFrame raw = .err .lengthChecksumMismatch 12 := by
  rw [decodeFrame_eq_decodeBody soi (scanHex_eq_none_iff.mpr digits)]
  simp [decodeBody, refused]

theorem decodeFrame_of_rest_scan {e : ErrorName} {j : Nat} (soi : raw[0]? = some Config.soi)
    (digits : DigitsAt raw 1 12) (length : LengthIs raw n) (scan : scanHex raw 13 (n + 4) = some (e, j)) :
    decodeFrame raw = .err e j := by
  obtain ⟨l, passes, rfl, even⟩ := length
  rw [decodeFrame_eq_decodeBody soi (scanHex_eq_none_iff.mpr digits)]
  simp [decodeBody, passes, even, scan]

theorem decodeFrame_eq_decodeTail (soi : raw[0]? = some Config.soi) (digits : DigitsAt raw 1 (16 + n))
    (length : LengthIs raw n) : decodeFrame raw = decodeTail raw n := by
  obtain ⟨header, rest⟩ := scans_eq_none_iff.mpr digits
  obtain ⟨l, passes, rfl, even⟩ := length
  rw [decodeFrame_eq_decodeBody soi header, decodeBody_eq_decodeTail passes even rest]

/-- The invariants of an accepted frame, as `Decode` checks them. -/
theorem checks_of_accepted (accepted : Accepted raw n) :
    raw[0]? = some Config.soi ∧ DigitsAt raw 1 (16 + n) ∧ LengthIs raw n ∧
      frameChecksum ((raw.drop 1).take (12 + n)) = wordAt raw (13 + n) ∧ raw[17 + n]? = some Config.eoi := by
  have ⟨bound, _⟩ := accepted
  obtain ⟨l, rfl⟩ : ∃ l : Len12, l.toNat = n := ⟨.ofNatLT n bound, BitVec.toNat_ofNatLT n bound⟩
  obtain ⟨soi, digits, length, even, checksum, eoi⟩ := accepted_toNat_iff.mp accepted
  exact ⟨soi, digits, ⟨l, length, rfl, even⟩, checksum, eoi⟩

/-- The check of step 5 refuses. -/
theorem decodeFrame_of_checksum_refused (soi : raw[0]? = some Config.soi) (digits : DigitsAt raw 1 (16 + n))
    (length : LengthIs raw n) (refused : frameChecksum ((raw.drop 1).take (12 + n)) ≠ wordAt raw (13 + n)) :
    decodeFrame raw = .err .checksumMismatch (16 + n) := by
  rw [decodeFrame_eq_decodeTail soi digits length, decodeTail, if_pos refused]

/-! ### One byte replaced -/

theorem DigitsAt.set {i count j : Nat} {c : Byte} (h : DigitsAt raw i count) (hex : isHex c = true) :
    DigitsAt (raw.set j c) i count := fun k hk => by
  obtain ⟨old, here, digit⟩ := h k hk
  by_cases same : j = i + k
  · obtain ⟨lt, -⟩ := List.getElem?_eq_some_iff.mp here
    exact ⟨c, by rw [same, List.getElem?_set_self lt], hex⟩
  · exact ⟨old, by rw [List.getElem?_set_ne same, here], digit⟩

theorem DigitsAt.set_other {i count j : Nat} {c : Byte} (h : DigitsAt raw i count) (outside : j < i ∨ i + count ≤ j) :
    DigitsAt (raw.set j c) i count := fun k hk => by
  obtain ⟨old, here, digit⟩ := h k hk
  exact ⟨old, by rw [List.getElem?_set_ne (by omega), here], digit⟩

theorem wordAt_set_other {i j : Nat} {c : Byte} (outside : j < i ∨ i + 4 ≤ j) : wordAt (raw.set j c) i = wordAt raw i := by
  simp only [wordAt]
  rw [List.getElem?_set_ne (by omega), List.getElem?_set_ne (by omega), List.getElem?_set_ne (by omega),
    List.getElem?_set_ne (by omega)]

theorem body_set_other {j : Nat} {c : Byte} (outside : 12 + n < j) :
    ((raw.set j c).drop 1).take (12 + n) = (raw.drop 1).take (12 + n) := by
  refine List.ext_getElem? fun k => ?_
  by_cases inside : k < 12 + n
  · rw [List.getElem?_take_of_lt inside, List.getElem?_take_of_lt inside, List.getElem?_drop, List.getElem?_drop,
      List.getElem?_set_ne (by omega)]
  · rw [List.getElem?_take_eq_none (by omega), List.getElem?_take_eq_none (by omega)]

/-- Another byte in the body gives another checksum. -/
theorem frameChecksum_set_ne {j : Nat} {c old : Byte} (lower : 1 ≤ j) (upper : j ≤ 12 + n) (here : raw[j]? = some old)
    (changed : c ≠ old) :
    frameChecksum (((raw.set j c).drop 1).take (12 + n)) ≠ frameChecksum ((raw.drop 1).take (12 + n)) := by
  obtain ⟨k, rfl⟩ := Nat.exists_eq_add_of_le' lower
  obtain ⟨lt, old_eq⟩ := List.getElem?_eq_some_iff.mp here
  have inside : k < ((raw.drop 1).take (12 + n)).length := by simp; omega
  have same : ((raw.drop 1).take (12 + n))[k] = old := by simpa using old_eq
  have set_eq : ((raw.set (k + 1) c).drop 1).take (12 + n) = ((raw.drop 1).take (12 + n)).set k c := by
    rw [List.drop_set, if_neg (by omega), Nat.add_sub_cancel, List.take_set]
  rw [set_eq, List.set_eq_take_append_cons_drop, if_pos inside]
  conv_rhs => rw [← List.take_append_drop k ((raw.drop 1).take (12 + n)), List.drop_eq_getElem_cons inside, same]
  exact frameChecksum_changed_byte _ _ changed

/-- The digits of a word in place are its nibbles, the high one first. -/
theorem decodeNibble_wordAt {i k : Nat} {c : Byte} (digits : DigitsAt raw i 4) (hk : k < 4) (here : raw[i + (3 - k)]? = some c) :
    decodeNibble c = some ((wordAt raw i).extractLsb' (4 * k) 4) := by
  obtain ⟨c0, h0, hex0⟩ := digits 0 (by decide)
  obtain ⟨c1, h1, hex1⟩ := digits 1 (by decide)
  obtain ⟨c2, h2, hex2⟩ := digits 2 (by decide)
  obtain ⟨c3, h3, hex3⟩ := digits 3 (by decide)
  obtain ⟨v0, digit0⟩ := Option.isSome_iff_exists.mp hex0
  obtain ⟨v1, digit1⟩ := Option.isSome_iff_exists.mp hex1
  obtain ⟨v2, digit2⟩ := Option.isSome_iff_exists.mp hex2
  obtain ⟨v3, digit3⟩ := Option.isSome_iff_exists.mp hex3
  rw [Nat.add_zero] at h0
  have word : (wordAt raw i).toNat = 4096 * v0.toNat + 256 * v1.toNat + 16 * v2.toNat + v3.toNat := by
    have value := decodeU16_toNat digit0 digit1 digit2 digit3
    obtain ⟨w, hw, toNat⟩ := Option.map_eq_some_iff.mp value
    simp [wordAt, h0, h1, h2, h3, hw, toNat]
  have := v0.isLt; have := v1.isLt; have := v2.isLt; have := v3.isLt
  have nibble (v : Nibble) (value : v.toNat = (wordAt raw i).toNat / 2 ^ (4 * k) % 16) :
      v = (wordAt raw i).extractLsb' (4 * k) 4 := by
    apply BitVec.eq_of_toNat_eq
    rw [value, BitVec.extractLsb'_toNat, Nat.shiftRight_eq_div_pow]
  obtain rfl | rfl | rfl | rfl : k = 3 ∨ k = 2 ∨ k = 1 ∨ k = 0 := by omega
  · obtain rfl : c0 = c := Option.some.inj (h0.symm.trans here)
    rw [digit0, nibble v0 (by omega)]
  · obtain rfl : c1 = c := Option.some.inj (h1.symm.trans here)
    rw [digit1, nibble v1 (by omega)]
  · obtain rfl : c2 = c := Option.some.inj (h2.symm.trans here)
    rw [digit2, nibble v2 (by omega)]
  · obtain rfl : c3 = c := Option.some.inj (h3.symm.trans here)
    rw [digit3, nibble v3 (by omega)]

theorem decodeNibble_eq_iff_hexValue_eq {c old : Byte} : hexValue c = hexValue old ↔ decodeNibble c = decodeNibble old := by
  rw [hexValue_eq, hexValue_eq]
  refine ⟨fun h => Option.map_injective (fun _ _ => BitVec.eq_of_toNat_eq) h, fun h => by rw [h]⟩

/-- Replacing one digit of a word: the nibble at its place, and no other, is the new digit's. -/
theorem wordAt_set {i k : Nat} {c old : Byte} (digits : DigitsAt raw i 4) (hk : k < 4) (here : raw[i + (3 - k)]? = some old)
    (hex : isHex c = true) :
    some ((wordAt (raw.set (i + (3 - k)) c) i).extractLsb' (4 * k) 4) = decodeNibble c ∧
    ∀ j < 4, j ≠ k →
      (wordAt (raw.set (i + (3 - k)) c) i).extractLsb' (4 * j) 4 = (wordAt raw i).extractLsb' (4 * j) 4 := by
  have digits' := digits.set (j := i + (3 - k)) hex
  obtain ⟨lt, -⟩ := List.getElem?_eq_some_iff.mp here
  refine ⟨(decodeNibble_wordAt digits' hk (List.getElem?_set_self lt)).symm, fun j hj ne => ?_⟩
  obtain ⟨other, there, -⟩ := digits (3 - j) (by omega)
  have kept : (raw.set (i + (3 - k)) c)[i + (3 - j)]? = some other := by rw [List.getElem?_set_ne (by omega), there]
  exact Option.some.inj ((decodeNibble_wordAt digits' hj kept).symm.trans (decodeNibble_wordAt digits hj there))

theorem wordAt_set_same_value {i k : Nat} {c old : Byte} (digits : DigitsAt raw i 4) (hk : k < 4)
    (here : raw[i + (3 - k)]? = some old) (hex : isHex c = true) (same : hexValue c = hexValue old) :
    wordAt (raw.set (i + (3 - k)) c) i = wordAt raw i := by
  obtain ⟨changed, others⟩ := wordAt_set digits hk here hex
  refine eq_of_nibbles_eq fun j hj => ?_
  rcases eq_or_ne j k with rfl | ne
  · rw [decodeNibble_eq_iff_hexValue_eq.mp same, decodeNibble_wordAt digits hk here] at changed
    exact Option.some.inj changed
  · exact others j hj ne

theorem wordAt_set_other_value {i k : Nat} {c old : Byte} (digits : DigitsAt raw i 4) (hk : k < 4)
    (here : raw[i + (3 - k)]? = some old) (hex : isHex c = true) (changed : hexValue c ≠ hexValue old) :
    wordAt (raw.set (i + (3 - k)) c) i ≠ wordAt raw i := fun same => by
  obtain ⟨nibble, -⟩ := wordAt_set digits hk here hex
  rw [same, ← decodeNibble_wordAt digits hk here] at nibble
  exact changed (decodeNibble_eq_iff_hexValue_eq.mpr nibble.symm)

/-- Another value of one digit makes a length word that passes one that does not (R123). -/
theorem lengthFieldCheck_set_eq_none {k : Nat} {c old : Byte} (digits : DigitsAt raw 9 4) (length : LengthIs raw n)
    (hk : k < 4) (here : raw[9 + (3 - k)]? = some old) (hex : isHex c = true) (changed : hexValue c ≠ hexValue old) :
    lengthFieldCheck (wordAt (raw.set (9 + (3 - k)) c) 9) = none := by
  obtain ⟨l, passes, -⟩ := length
  by_contra still
  obtain ⟨-, others⟩ := wordAt_set digits hk here hex
  have sum := (isSome_lengthFieldCheck _).mp (Option.isSome_iff_ne_none.mpr still)
  have oldSum := (isSome_lengthFieldCheck _).mp (Option.isSome_iff_exists.mpr ⟨l, passes⟩)
  exact wordAt_set_other_value digits hk here hex changed (eq_of_nibbleSum_eq hk others (sum.trans oldSum.symm))

end

/-- Settles O17: field by field, the check that sees the change. -/
theorem changedHexCharacterIsDetected : Obligations.ChangedHexCharacterIsDetected := by
  unfold Obligations.ChangedHexCharacterIsDetected
  intro raw n i c old accepted here changed digit
  obtain ⟨soi, digits, length, checksum, -⟩ := checks_of_accepted accepted
  have hex : isHex c = true := (hexValue_ne_none_iff c).mp digit
  have digits' : DigitsAt (raw.set i c) 1 (16 + n) := digits.set hex
  have soi' (lower : 1 ≤ i) : (raw.set i c)[0]? = some Config.soi := by rw [List.getElem?_set_ne (by omega), soi]
  have lengthKept (same : wordAt (raw.set i c) 9 = wordAt raw 9) : LengthIs (raw.set i c) n := by rwa [LengthIs, same]
  have inBody (lower : 1 ≤ i) (upper : i ≤ 12 + n) (same : wordAt (raw.set i c) 9 = wordAt raw 9) :
      decodeFrame (raw.set i c) = .err .checksumMismatch (16 + n) := by
    refine decodeFrame_of_checksum_refused (soi' lower) digits' (lengthKept same) ?_
    rw [wordAt_set_other (by omega), ← checksum]
    exact frameChecksum_set_ne lower upper here changed
  refine ⟨fun inRange => inBody (by omega) (by omega) (wordAt_set_other (by omega)), fun ⟨lower, upper⟩ other => ?length,
    fun ⟨lower, upper⟩ same => ?letterCase, fun ⟨lower, upper⟩ other => ?checksum⟩
  case length =>
    obtain ⟨k, hk, rfl⟩ : ∃ k < 4, i = 9 + (3 - k) := ⟨12 - i, by omega, by omega⟩
    exact decodeFrame_of_length_refused (soi' (by omega)) (digits'.sub le_rfl (by omega))
      (lengthFieldCheck_set_eq_none (digits.sub (by omega) (by omega)) length hk here hex other)
  case letterCase =>
    obtain ⟨k, hk, rfl⟩ : ∃ k < 4, i = 9 + (3 - k) := ⟨12 - i, by omega, by omega⟩
    exact inBody (by omega) (by omega) (wordAt_set_same_value (digits.sub (by omega) (by omega)) hk here hex same)
  case checksum =>
    obtain ⟨k, hk, rfl⟩ : ∃ k < 4, i = 13 + n + (3 - k) := ⟨16 + n - i, by omega, by omega⟩
    refine decodeFrame_of_checksum_refused (soi' (by omega)) digits' (lengthKept (wordAt_set_other (by omega))) ?_
    rw [body_set_other (by omega), checksum]
    exact (wordAt_set_other_value (digits.sub (by omega) (by omega)) hk here hex other).symm

/-! ### A frame cut short -/

theorem DigitsAt.take {raw : List Byte} {i count k : Nat} (h : DigitsAt raw i count) (fits : i + count ≤ k) :
    DigitsAt (raw.take k) i count := fun j hj => by
  obtain ⟨c, here, digit⟩ := h j hj
  exact ⟨c, by rw [List.getElem?_take_of_lt (by omega), here], digit⟩

theorem wordAt_take {raw : List Byte} {i k : Nat} (fits : i + 4 ≤ k) : wordAt (raw.take k) i = wordAt raw i := by
  simp only [wordAt]
  rw [List.getElem?_take_of_lt (by omega), List.getElem?_take_of_lt (by omega), List.getElem?_take_of_lt (by omega),
    List.getElem?_take_of_lt (by omega)]

/-- Settles O18: the checks before the damage pass, and the check that reaches it refuses. -/
theorem damagedFrameIsDetected : Obligations.DamagedFrameIsDetected := by
  unfold Obligations.DamagedFrameIsDetected
  intro raw n accepted
  have ⟨_, _, long, _⟩ := accepted
  obtain ⟨soi, digits, length, checksum, eoi⟩ := checks_of_accepted accepted
  refine ⟨fun i c lower upper bad => ?notDigit, fun c marker => ?start, fun c marker => ?finish, fun k short => ?early⟩
  case notDigit =>
    have notHex : isHex c = false := by
      by_contra hex
      exact (hexValue_ne_none_iff c).mpr (by simpa using hex) bad
    have soi' : (raw.set i c)[0]? = some Config.soi := by rw [List.getElem?_set_ne (by omega), soi]
    have here : (raw.set i c)[i]? = some c := List.getElem?_set_self (by omega)
    rcases Nat.lt_or_ge 12 i with past | inHeader
    · refine decodeFrame_of_rest_scan (n := n) soi' ((digits.sub le_rfl (by omega)).set_other (by omega)) ?_
        (scanHex_bad ((digits.sub (by omega) (by omega)).set_other (by omega)) past (by omega) here notHex)
      rwa [LengthIs, wordAt_set_other (by omega)]
    · exact decodeFrame_of_header_scan soi'
        (scanHex_bad ((digits.sub le_rfl (by omega)).set_other (by omega)) lower (by omega) here notHex)
  case start =>
    have here : (raw.set 0 c)[0]? = some c := List.getElem?_set_self (by omega)
    simp only [decodeFrame, here]
    exact if_pos marker
  case finish =>
    have here : (raw.set (17 + n) c)[17 + n]? = some c := List.getElem?_set_self (by omega)
    have length' : LengthIs (raw.set (17 + n) c) n := by rwa [LengthIs, wordAt_set_other (by omega)]
    rw [decodeFrame_eq_decodeTail (by rw [List.getElem?_set_ne (by omega), soi]) (digits.set_other (by omega)) length',
      decodeTail, body_set_other (by omega), wordAt_set_other (by omega), if_neg (not_not.mpr checksum)]
    simp only [here]
    exact if_pos marker
  case early =>
    have missing : (raw.take k)[k]? = none := List.getElem?_take_eq_none le_rfl
    rcases Nat.eq_zero_or_pos k with rfl | positive
    · rfl
    have soi' : (raw.take k)[0]? = some Config.soi := by rw [List.getElem?_take_of_lt positive, soi]
    have length' (past : 13 ≤ k) : LengthIs (raw.take k) n := by rwa [LengthIs, wordAt_take past]
    rcases Nat.lt_or_ge k 13 with inHeader | past
    · exact decodeFrame_of_header_scan soi'
        (scanHex_missing ((digits.sub le_rfl (by omega)).take (by omega)) positive (by omega) missing)
    rcases Nat.lt_or_ge k (17 + n) with inRest | last
    · exact decodeFrame_of_rest_scan soi' ((digits.sub le_rfl (by omega)).take (by omega)) (length' past)
        (scanHex_missing ((digits.sub (by omega) (by omega)).take (by omega)) past (by omega) missing)
    · obtain rfl : k = 17 + n := by omega
      have body : ((raw.take (17 + n)).drop 1).take (12 + n) = (raw.drop 1).take (12 + n) :=
        take_drop_of_take_eq (m := 13 + n) (by rw [List.take_take, Nat.min_eq_left (by omega)]) (by omega)
      rw [decodeFrame_eq_decodeTail soi' (digits.take (by omega)) (length' past), decodeTail, body,
        wordAt_take (by omega), if_neg (not_not.mpr checksum)]
      simp only [missing]

end Sys2Proof.Proofs
end

section
/-! PROOFS. One clock cycle of the transaction, state by state (R199, R204, R206; logs 1, 4, 8). -/

namespace Sys2Proof.Proofs

open Sys2Proof Sys2Proof.Machine Sys2Proof.Safety Sys2Proof.Laws

/-! ### Which step a cycle is -/

section
variable {s : State}

/-- The word of the state the transaction is in is its cycle (log 1). -/
theorem exec_stateWord_of {x : TState} (state : s.txn.state = x) : exec (stateWord x) s = .next (txnCycle s) := by
  rw [← state, exec_own_stateWord]

theorem txnCycle_busy (busy : s.txn.busy = true) : txnCycle s = txnAdvance (nextCycle s.chan).1 (txnArrive s) := by
  rcases txnCycle_cases s with ⟨-, e⟩ | ⟨rest, -⟩ | ⟨rest, -⟩
  · exact e
  all_goals simp [rest] at busy

theorem txnCycle_write (busy : s.txn.busy = true) (state : s.txn.state = .idle) :
    txnCycle s = txnWrite (nextCycle s.chan).1 (txnArrive s) := by
  rw [txnCycle_busy busy, txnAdvance, show (txnArrive s).txn = s.txn from rfl, state]

theorem txnCycle_sent (busy : s.txn.busy = true) (state : s.txn.state = .sent) :
    txnCycle s = txnSent (txnArrive s) := by
  rw [txnCycle_busy busy, txnAdvance, show (txnArrive s).txn = s.txn from rfl, state]

theorem txnCycle_reading (reading : Reading s.txn) :
    txnCycle s = txnRead (readLimit s.txn) (nextCycle s.chan).1 (txnArrive s) := by
  obtain ⟨busy, ⟨state, more⟩ | ⟨state, more⟩⟩ := reading
  · have limit : readLimit s.txn = Config.headerRegion := by rw [readLimit, if_pos state]; rfl
    rw [txnCycle_busy busy, txnAdvance, show (txnArrive s).txn = s.txn from rfl, state, limit]
    exact if_pos more
  · have limit : readLimit s.txn = replyLength s.txn := by rw [readLimit, if_neg (by rw [state]; decide)]; rfl
    rw [txnCycle_busy busy, txnAdvance, show (txnArrive s).txn = s.txn from rfl, state, limit]
    exact if_pos more

theorem txnCycle_length (busy : s.txn.busy = true) (state : s.txn.state = .awaitingHeader)
    (read : 18 ≤ s.txn.cnt.toNat) : txnCycle s = txnLength (txnArrive s) := by
  rw [txnCycle_busy busy, txnAdvance, show (txnArrive s).txn = s.txn from rfl, state]
  exact if_neg (Nat.not_lt.mpr read)

theorem txnCycle_decode (busy : s.txn.busy = true) (state : s.txn.state = .awaitingPayload)
    (read : 18 + s.txn.n.toNat ≤ s.txn.cnt.toNat) : txnCycle s = txnDecode (txnArrive s) := by
  rw [txnCycle_busy busy, txnAdvance, show (txnArrive s).txn = s.txn from rfl, state]
  exact if_neg (Nat.not_lt.mpr read)

/-- `start` (R199, R204). -/
theorem txnCycle_start (rest : s.txn.busy = false) (start : s.ports.tStart = true) :
    txnCycle s = txnStart (txnArrive s) := by
  rcases txnCycle_cases s with ⟨busy, -⟩ | ⟨-, -, e⟩ | ⟨-, quiet, -⟩
  · simp [rest] at busy
  · exact e
  · simp [start] at quiet

theorem txnCycle_rest (rest : s.txn.busy = false) (start : s.ports.tStart = false) : txnCycle s = txnArrive s := by
  rcases txnCycle_cases s with ⟨busy, -⟩ | ⟨-, started, -⟩ | ⟨-, -, e⟩
  · simp [rest] at busy
  · simp [start] at started
  · exact e

/-! ### The write (R192, R204) -/

theorem txnWrite_refused {c : ChanCycle} {e : ErrorName} (phase : s.txnEnc.phase = .fail) (err : s.txnEnc.err = some e) :
    txnWrite c s = txnFail e s := by
  simp only [txnWrite, phase, err]

/-- The write after a byte the transport takes, if it takes one. -/
def txnOffered (c : ChanCycle) (s : State) : State := if c.txReady then txnPut s else s

theorem txnOffered_eq (c : ChanCycle) (s : State) :
    txnOffered c s = { s with
      chan := { s.chan with out := if c.txReady then s.chan.out ++ [encOffered s s.txnEnc] else s.chan.out }
      txnEnc := if c.txReady then encEmitted (encOffered s s.txnEnc) s.txnEnc else s.txnEnc } := by
  unfold txnOffered
  split
  · rw [← encEmit_eq]; rfl
  · rfl

theorem txnWrite_emitting {c : ChanCycle} (phase : s.txnEnc.phase = .emit) :
    txnWrite c s =
      if c.txErr then txnFail .ioError { txnOffered c s with txnEnc := encAbort (txnOffered c s).txnEnc }
      else if (txnOffered c s).txnEnc.phase = .done then
        (txnOffered c s).setTxn { (txnOffered c s).txn with state := .sent }
      else txnOffered c s := by
  simp only [txnWrite, phase]
  rfl

theorem phase_encEmitted (b : Byte) {r : EncRegs} (phase : r.phase = .emit) :
    (encEmitted b r).phase = .done ↔ r.idx.toNat = 17 + r.hexlen.toNat := by
  unfold encEmitted
  dsimp only
  split <;> simp_all

/-- Settles O37: `start`, the branches of a write cycle, and `Sent`. -/
theorem startAndWriteCycles : Obligations.StartAndWriteCycles := by
  unfold Obligations.StartAndWriteCycles
  intro s c ch
  refine ⟨fun x own rest start => ?start, fun busy state phase quiet => ⟨fun refused => ?held, fun taken => ?put⟩,
    fun busy state => ?sent⟩
  case start =>
    rw [own, exec_own_stateWord, txnCycle_start rest start, txnStart, encStart_eq]
    rfl
  case held =>
    refine (exec_stateWord_of state).trans (congrArg _ ?_)
    have kept : txnOffered c (txnArrive s) = txnArrive s := by rw [txnOffered, refused]; rfl
    rw [txnCycle_write busy state, txnWrite_emitting (s := txnArrive s) (c := c) phase, kept, quiet,
      if_neg Bool.false_ne_true, if_neg (by rw [show (txnArrive s).txnEnc = s.txnEnc from rfl, phase]; decide)]
    rfl
  case put =>
    refine (exec_stateWord_of state).trans (congrArg _ ?_)
    have done := phase_encEmitted (encOffered s s.txnEnc) phase
    rw [txnCycle_write busy state, txnWrite_emitting (s := txnArrive s) (c := c) phase, txnOffered_eq, quiet]
    simp only [taken, if_true, Bool.false_eq_true, if_false]
    by_cases last : s.txnEnc.idx.toNat = 17 + s.txnEnc.hexlen.toNat
    · rw [if_pos last]
      exact if_pos (done.mpr last)
    · rw [if_neg last]
      exact if_neg (done.not.mpr last)
  case sent =>
    exact (exec_stateWord_of state).trans (congrArg _ (txnCycle_sent busy state))

/-! ### The reads (R193, R195, R206) -/

/-- The deadline rule where the read goes on. -/
theorem txnDeadline_going {limit : Nat} (c : ChanCycle)
    (going : s.txn.timer < s.txn.timeout ∨ limit ≤ s.txn.cnt.toNat + s.chan.inn.length) :
    txnDeadline limit c s = { s with txn := { s.txn with
      timer := if c.tick = true ∧ s.txn.timer.toNat < 4294967295 then s.txn.timer + 1 else s.txn.timer } } := by
  rcases txnDeadline_cases limit c s with ⟨late, few, -⟩ | ⟨-, ⟨tick, below, e⟩ | ⟨none, e⟩⟩
  · rcases going with early | all
    · exact absurd early (BitVec.not_lt.mpr late)
    · omega
  · rw [e, if_pos ⟨tick, below⟩]; rfl
  · rw [e, if_neg (by rintro ⟨tick, below⟩; rcases none with none | top <;> simp_all)]

/-- The deadline rule where time is up and bytes are missing. -/
theorem txnDeadline_late {limit : Nat} (c : ChanCycle) (late : s.txn.timeout ≤ s.txn.timer)
    (few : s.txn.cnt.toNat + s.chan.inn.length < limit) :
    txnDeadline limit c s = txnFail .responseTimeout (txnDrain s) := if_pos ⟨late, few⟩

theorem txnRead_failed {limit : Nat} {c : ChanCycle} (error : c.rxErr = true) :
    txnRead limit c s = txnFail .ioError
      { s with chan := { s.chan with inn := Config.inputAfterIoError s.draws }, draws := s.draws + 1 } := if_pos error

theorem txnRead_nothing {limit : Nat} {c : ChanCycle} (good : c.rxErr = false) (nothing : s.chan.inn = []) :
    txnRead limit c s = txnDeadline limit c s := by
  simp only [txnRead, good, nothing, Bool.false_eq_true, if_false]

/-- The read's byte taken from `ch.in` and stored. -/
def txnTake (b : Byte) (more : List Byte) (s : State) : State := txnStore (s.setChan { s.chan with inn := more }) b

theorem txnRead_byte {limit : Nat} {c : ChanCycle} {b : Byte} {more : List Byte} (good : c.rxErr = false)
    (offered : s.chan.inn = b :: more) :
    txnRead limit c s =
      if (txnTake b more s).txn.cnt.toNat = limit then txnTake b more s else txnDeadline limit c (txnTake b more s) := by
  simp only [txnRead, good, offered, Bool.false_eq_true, if_false]
  rfl

/-- A read wants no more bytes than `RXBUF` has (R42). -/
theorem cnt_lt_limit (reading : Reading s.txn) : s.txn.cnt.toNat < readLimit s.txn ∧ readLimit s.txn ≤ 4113 := by
  have := s.txn.n.isLt
  obtain ⟨-, ⟨state, more⟩ | ⟨state, more⟩⟩ := reading
  · rw [readLimit, if_pos state]; omega
  · rw [readLimit, if_neg (by rw [state]; decide)]; omega

theorem cnt_txnTake (b : Byte) (more : List Byte) (room : s.txn.cnt.toNat < 4113) :
    (txnTake b more s).txn.cnt.toNat = s.txn.cnt.toNat + 1 := cnt_txnStore b room

theorem read_txnTake (b : Byte) (more : List Byte) (room : s.txn.cnt.toNat < 4113) (k : Nat) :
    Memory.read (txnTake b more s).rxbuf k = if k = s.txn.cnt.toNat then some b else Memory.read s.rxbuf k :=
  read_txnStore b room k

/-- One cycle of a read that takes a byte and does not time out. -/
theorem txnRead_taken {c : ChanCycle} {b : Byte} {more : List Byte} (reading : Reading s.txn) (good : c.rxErr = false)
    (offered : s.chan.inn = b :: more)
    (going : s.txn.timer < s.txn.timeout ∨ readLimit s.txn ≤ s.txn.cnt.toNat + s.chan.inn.length) :
    txnRead (readLimit s.txn) c s = { s with
      chan := { s.chan with inn := more }
      rxbuf := (txnTake b more s).rxbuf
      txn := { s.txn with
        cnt := s.txn.cnt + 1
        timer := if s.txn.cnt.toNat + 1 ≠ readLimit s.txn ∧ c.tick = true ∧ s.txn.timer.toNat < 2 ^ 32 - 1 then
          s.txn.timer + 1 else s.txn.timer } } := by
  obtain ⟨below, atMost⟩ := cnt_lt_limit reading
  have counted := cnt_txnTake (s := s) b more (by omega)
  rw [txnRead_byte good offered]
  by_cases last : s.txn.cnt.toNat + 1 = readLimit s.txn
  · rw [if_pos (counted.trans last)]
    simp only [last, ne_eq, not_true_eq_false, false_and, if_false]
    rfl
  · rw [if_neg (by rw [counted]; exact last), txnDeadline_going]
    · simp only [ne_eq, last, not_false_eq_true, true_and]
      rfl
    · have left : (txnTake b more s).chan.inn = more := rfl
      rw [offered, List.length_cons] at going
      rw [counted, left]
      exact going.imp_right fun all => by omega

/-- Settles O38: the two branches of a read cycle that goes on. -/
theorem readCycles : Obligations.ReadCycles := by
  unfold Obligations.ReadCycles
  intro s c ch reading good
  refine ⟨fun nothing early => ?nothing, fun b more offered going => ?byte⟩
  case nothing =>
    have below : s.txn.timer.toNat < 4294967295 := by bv_omega
    rw [exec_own_stateWord, txnCycle_reading reading, txnRead_nothing good nothing, txnDeadline_going (s := txnArrive s) _ (.inl early)]
    simp only [show (txnArrive s).txn = s.txn from rfl, below, and_true]
    rfl
  case byte =>
    obtain ⟨belowLimit, atMost⟩ := cnt_lt_limit reading
    refine ⟨(txnTake b more (txnArrive s)).rxbuf, ?_, read_txnTake b more (by change s.txn.cnt.toNat < _; omega)⟩
    rw [exec_own_stateWord, txnCycle_reading reading]
    exact congrArg _ (txnRead_taken (s := txnArrive s) reading good offered going)

/-! ### T4 and T6 (R194, R196, R197) -/

/-- T4 on the four length characters that stand in `RXBUF`. -/
theorem headerLength_stored {h : List Byte} (four : h.length = 4) (stored : ∀ k < 4, Memory.read s.rxbuf (9 + k) = h[k]?) :
    headerLength (rxBytes s Config.headerRegion) =
      match hexValues h with
      | none => .error .invalidHexDigit
      | some w => if w / 4096 = nibbleCheck (w % 4096) then .ok (BitVec.ofNat 12 w) else .error .lengthChecksumMismatch := by
  obtain ⟨c0, c1, c2, c3, rfl⟩ : ∃ c0 c1 c2 c3, h = [c0, c1, c2, c3] := by
    match h, four with
    | [c0, c1, c2, c3], _ => exact ⟨c0, c1, c2, c3, rfl⟩
  have character (k : Nat) (hk : k < 4) (c : Byte) (here : [c0, c1, c2, c3][k]? = some c) :
      (rxBytes s Config.headerRegion)[9 + k]?.getD 0 = c := by
    have inside : 9 + k < 18 := by omega
    simp [rxBytes, Memory.bytes, Memory.valueAt, Config.headerRegion, List.getElem?_range inside, stored k hk, here]
  have at9 := character 0 (by decide) c0 rfl
  have at10 := character 1 (by decide) c1 rfl
  have at11 := character 2 (by decide) c2 rfl
  have at12 := character 3 (by decide) c3 rfl
  simp only [Nat.reduceAdd] at at9 at10 at11 at12
  rw [headerLength, at9, at10, at11, at12, hexValues_four]
  cases decodeU16 c0 c1 c2 c3 with
  | none => rfl
  | some w =>
    simp only [Option.map_some, lengthFieldCheck_eq]
    by_cases passes : w.toNat / 4096 = nibbleCheck (w.toNat % 4096)
    · rw [if_pos passes, if_pos passes]
    · rw [if_neg passes, if_neg passes]

/-- The bytes of a reply that stands in `RXBUF`. -/
theorem rxBytes_stored {raw : List Byte} (stored : Stored s.rxbuf raw) : rxBytes s raw.length = raw :=
  memory_bytes_eq_of_stored stored

/-- T6 on a reply that `Decode` accepts. -/
theorem txnDecode_accepted {raw : List Byte} {reply : Reply} {m : Nat} (length : raw.length = 18 + s.txn.n.toNat)
    (stored : Stored s.rxbuf raw) (verdict : decodeFrame raw = .ok reply m) :
    ∃ d, txnDecode s = { s with
        txnDec := d
        txn := { s.txn with
          state := .complete
          busy := false
          status := reply.status
          rplen := BitVec.ofNat 11 reply.payload.length
          ver := reply.version
          radr := reply.address
          dev := reply.deviceType }
        result := some (.ok (.reply reply)) } ∧
      d = (decRun raw (decStart s.txnDec)).1 ∧ RunAccepted reply m s.txnDec.rpbuf d := by
  have run := runMatches_decodeFrame raw s.txnDec
  rw [verdict] at run
  obtain ⟨accepted, -⟩ := run
  have replayed : rxBytes s (replyLength s.txn) = raw := by
    rw [show replyLength s.txn = raw.length from length.symm, rxBytes_stored stored]
  refine ⟨_, ?_, rfl, accepted⟩
  obtain ⟨phase, err, stands, ver, adr, dev, fn, plen, inRpbuf, above⟩ := accepted
  have bytes := memory_bytes_eq_of_stored (buffer := 3) (epoch := s.epoch) inRpbuf
  rw [← plen] at bytes
  have count : BitVec.ofNat 11 reply.payload.length = (decRun raw (decStart s.txnDec)).1.plen := by rw [← plen]; simp
  unfold txnDecode
  rw [replayed]
  simp only [phase, decReply, bytes, ver, adr, dev, fn, count]
  rfl

/-- T6 on a reply that `Decode` refuses; the whole reply being there, no byte is missing (R196). -/
theorem txnDecode_refused {raw : List Byte} {e : ErrorName} {m : Nat} (length : raw.length = 18 + s.txn.n.toNat)
    (stored : Stored s.rxbuf raw) (verdict : decodeFrame raw = .err e m) (raised : e ≠ .truncatedFrame) :
    ∃ t, (decRun raw (decStart s.txnDec)).1 = decFailed e t ∧
      txnDecode s = txnFail e (s.setTxnDec (decFailed e t)) ∧ t.pos.toNat = m := by
  have run := runMatches_decodeFrame raw s.txnDec
  rw [verdict] at run
  have replayed : rxBytes s (replyLength s.txn) = raw := by
    rw [show replyLength s.txn = raw.length from length.symm, rxBytes_stored stored]
  obtain ⟨t, failed, stands⟩ : ∃ t, (decRun raw (decStart s.txnDec)).1 = decFailed e t ∧ t.pos.toNat = m := by
    change RunRefused e m _ at run
    rwa [RunRefused, if_neg raised] at run
  refine ⟨t, failed, ?_, stands⟩
  unfold txnDecode
  rw [replayed, failed]
  rfl

/-- Settles O39: T4 and T6 on good input. -/
theorem headerAndReplyAccepted : Obligations.HeaderAndReplyAccepted := by
  unfold Obligations.HeaderAndReplyAccepted
  intro s busy ch
  refine ⟨fun h w state read four stored value good => ?header, fun raw reply m state length read stored verdict => ?reply⟩
  case header =>
    refine (exec_stateWord_of state).trans (congrArg _ ?_)
    rw [txnCycle_length busy state read, txnLength, headerLength_stored (s := txnArrive s) four stored, value]
    simp only [good, if_true]
    rfl
  case reply =>
    obtain ⟨d, decoded, -, ⟨phase, err, stands, ver, adr, dev, fn, plen, inRpbuf, above⟩⟩ :=
      txnDecode_accepted (s := txnArrive s) length stored verdict
    refine ⟨d, (exec_stateWord_of state).trans (congrArg _ ?_), phase, inRpbuf⟩
    rw [txnCycle_decode busy state (by omega), decoded]
    rfl

/-! ### The transition table (R199) -/

/-- What a step may do to `T_STATE` and `t_busy` from a busy state: nothing, the row's transition, or a failure. -/
def Advances (next : TState) (busy : Bool) (s t : State) : Prop :=
  (t.txn.state = s.txn.state ∧ t.txn.busy = s.txn.busy) ∨
  (t.txn.state = next ∧ t.txn.busy = busy ∧ t.txn.err = s.txn.err) ∨
  (t.txn.state = .failed ∧ t.txn.busy = false ∧ ∃ e, t.txn.err = some e)

theorem advances_txnFail {next : TState} {busy : Bool} (e : ErrorName) (s t : State) :
    Advances next busy s (txnFail e t) := .inr (.inr ⟨rfl, rfl, e, rfl⟩)

theorem advances_txnWrite (c : ChanCycle) (s : State) : Advances .sent s.txn.busy s (txnWrite c s) := by
  have same : (txnOffered c s).txn = s.txn := by rw [txnOffered_eq]
  cases phase : s.txnEnc.phase with
  | idle => exact .inl (by simp [txnWrite, phase])
  | done => exact .inl (by simp [txnWrite, phase])
  | fail =>
    cases err : s.txnEnc.err with
    | none => exact .inl (by simp [txnWrite, phase, err])
    | some e => rw [txnWrite_refused phase err]; exact advances_txnFail e s s
  | emit =>
    rw [txnWrite_emitting phase]
    split
    · exact advances_txnFail _ s _
    split
    · have kept : (txnOffered c s).txn.busy = s.txn.busy ∧ (txnOffered c s).txn.err = s.txn.err := by simp only [same, and_self]
      exact .inr (.inl ⟨rfl, kept⟩)
    · exact .inl (by rw [same]; exact ⟨rfl, rfl⟩)

theorem advances_txnDeadline {next : TState} {busy : Bool} (limit : Nat) (c : ChanCycle) (s : State) :
    Advances next busy s (txnDeadline limit c s) := by
  rcases txnDeadline_cases limit c s with ⟨-, -, e⟩ | ⟨-, ⟨-, -, e⟩ | ⟨-, e⟩⟩ <;> rw [e]
  · exact advances_txnFail _ s _
  · exact .inl ⟨rfl, rfl⟩
  · exact .inl ⟨rfl, rfl⟩

theorem advances_txnRead {next : TState} {busy : Bool} (limit : Nat) (c : ChanCycle) (s : State) :
    Advances next busy s (txnRead limit c s) := by
  rcases txnRead_cases limit c s with ⟨-, e⟩ | ⟨-, -, e⟩ | ⟨-, b, rest, -, t, rfl, e⟩ <;> rw [e]
  · exact advances_txnFail _ s _
  · exact advances_txnDeadline limit c s
  · split
    · exact .inl ⟨rfl, rfl⟩
    · exact advances_txnDeadline limit c _

theorem advances_txnLength (s : State) : Advances .awaitingPayload s.txn.busy s (txnLength s) := by
  unfold txnLength
  split
  · exact advances_txnFail _ s _
  · exact .inr (.inl ⟨rfl, rfl, rfl⟩)

theorem advances_txnDecode (s : State) : Advances .complete false s (txnDecode s) := by
  unfold txnDecode
  dsimp only
  split
  · exact .inr (.inl ⟨rfl, rfl, rfl⟩)
  · split
    · exact advances_txnFail _ s _
    · exact .inl ⟨rfl, rfl⟩
  all_goals exact .inl ⟨rfl, rfl⟩

/-- Settles O40: a busy cycle is the step of its state, and each step's outcomes are a row of the table. -/
theorem onlyTheseTransitions : Obligations.OnlyTheseTransitions := by
  unfold Obligations.OnlyTheseTransitions
  intro s matched errors
  refine ⟨txnCycle s, exec_own_stateWord s, ?_⟩
  rcases Bool.eq_false_or_eq_true s.txn.busy with busy | rest
  case inr =>
    rcases Bool.eq_false_or_eq_true s.ports.tStart with start | quiet
    · rw [txnCycle_start rest start]
      exact .inr (.inl ⟨rest, start, rfl, rfl⟩)
    · rw [txnCycle_rest rest quiet]
      exact .inl ⟨rfl, rfl⟩
  have clear (state : s.txn.state ≠ .failed) : s.txn.err = none := errors.2 state
  cases state : s.txn.state with
  | idle =>
    rw [txnCycle_write busy state]
    rcases advances_txnWrite (nextCycle s.chan).1 (txnArrive s) with same | ⟨sent, still, -⟩ | failed
    · exact .inl (by rw [← state]; exact same)
    · exact .inr (.inr (.inl ⟨busy, rfl, sent, still.trans busy⟩))
    · exact .inr (.inr (.inr (.inr (.inr (.inr ⟨busy, by decide, failed⟩)))))
  | sent =>
    rw [txnCycle_sent busy state]
    exact .inr (.inr (.inr (.inl ⟨busy, rfl, rfl, busy⟩)))
  | awaitingHeader =>
    rcases Nat.lt_or_ge s.txn.cnt.toNat 18 with more | read
    · rw [txnCycle_reading ⟨busy, .inl ⟨state, more⟩⟩]
      rcases advances_txnRead (next := .awaitingPayload) (busy := s.txn.busy) (readLimit s.txn) (nextCycle s.chan).1
        (txnArrive s) with same | ⟨next, still, -⟩ | failed
      · exact .inl (by rw [← state]; exact same)
      · exact .inr (.inr (.inr (.inr (.inl ⟨busy, rfl, next, still.trans busy⟩))))
      · exact .inr (.inr (.inr (.inr (.inr (.inr ⟨busy, by decide, failed⟩)))))
    · rw [txnCycle_length busy state read]
      rcases advances_txnLength (txnArrive s) with same | ⟨next, still, -⟩ | failed
      · exact .inl (by rw [← state]; exact same)
      · exact .inr (.inr (.inr (.inr (.inl ⟨busy, rfl, next, still.trans busy⟩))))
      · exact .inr (.inr (.inr (.inr (.inr (.inr ⟨busy, by decide, failed⟩)))))
  | awaitingPayload =>
    have noError : s.txn.err = none := clear (by rw [state]; decide)
    rcases Nat.lt_or_ge s.txn.cnt.toNat (18 + s.txn.n.toNat) with more | read
    · rw [txnCycle_reading ⟨busy, .inr ⟨state, more⟩⟩]
      rcases advances_txnRead (next := .complete) (busy := false) (readLimit s.txn) (nextCycle s.chan).1 (txnArrive s)
        with same | ⟨next, ended, err⟩ | failed
      · exact .inl (by rw [← state]; exact same)
      · exact .inr (.inr (.inr (.inr (.inr (.inl ⟨busy, rfl, next, ended, err.trans noError⟩)))))
      · exact .inr (.inr (.inr (.inr (.inr (.inr ⟨busy, by decide, failed⟩)))))
    · rw [txnCycle_decode busy state read]
      rcases advances_txnDecode (txnArrive s) with same | ⟨next, ended, err⟩ | failed
      · exact .inl (by rw [← state]; exact same)
      · exact .inr (.inr (.inr (.inr (.inr (.inl ⟨busy, rfl, next, ended, err.trans noError⟩)))))
      · exact .inr (.inr (.inr (.inr (.inr (.inr ⟨busy, by decide, failed⟩)))))
  | complete => exact absurd state (matched.1 busy).1
  | failed => exact absurd state (matched.1 busy).2

end

end Sys2Proof.Proofs
end

section
/-! PROOFS. The error words: which block takes the error, and what that leaves (R231 to R240, R244; logs 1, 27). -/

namespace Sys2Proof.Proofs

open Sys2Proof Sys2Proof.Machine Sys2Proof.Safety Sys2Proof.Laws

/-! ### Which block raises an error -/

/-- A leaf block shows the error at its ports (R234, R235, R236). -/
def leafShows (s : State) : ErrorName → Bool
  | .invalidHexDigit => (hexDecode s.ports).isNone
  | .lengthChecksumMismatch => (lengthFieldCheck s.ports.lcWordIn).isNone
  | .checksumMismatch => accResult s.acc != s.ports.acRx
  | .ioError | .responseTimeout | .malformedFrame | .invalidAddress | .payloadTooLarge | .truncatedFrame => false

section
variable {e : ErrorName} {s : State}

theorem leafRaisesNo_iff : LeafRaisesNo e s ↔ leafShows s e = false := by
  have sum : (s.acc.toNat + s.ports.acRx.toNat) % 65536 = 0 ↔ accResult s.acc = s.ports.acRx := by
    rw [eq_comm (a := accResult s.acc), eq_accResult_iff, Nat.add_comm]
  cases e <;> simp [LeafRaisesNo, leafShows, leafOutputs, sum, Option.isSome_iff_ne_none]

/-- The transaction raises the error in its own cycle, unless it is `Decode`'s alone (R240). -/
theorem txnRaisesNo_iff : TxnRaisesNo e s ↔ e = .truncatedFrame ∨ txnRaises e s (txnCycle s) = false := by
  refine or_congr_right ?_
  simp only [exec_own_stateWord, Host.Outcome.next.injEq, forall_eq']
  cases busy : s.txn.busy <;> cases after : (txnCycle s).txn.busy <;>
    simp [txnRaises, busy, after]

theorem accepting_iff (d : DecUnit) : Accepting d ↔ decAccepts d.phase = true := (decAccepts_eq_true_iff d.phase).symm

/-- The decoder raises no error while at rest or starting. -/
theorem decRaises_eq_false_of_quiet (quiet : decAccepts s.dec.phase = false ∨ s.ports.deStart = true) :
    decRaises e s (decCycle s) = false := by
  rcases quiet with rest | start
  · simp [decRaises, rest]
  · simp [decRaises, decCycle_dec, decClocked_start _ start, decStart, decLeaveError]

/-- The byte on offer, done to the decoder. -/
def decOffered (s : State) : DecUnit := if s.ports.deInValid = true then decByte s.ports.deInData s.dec else s.dec

theorem decCycle_going (start : s.ports.deStart = false) :
    (decCycle s).dec = if s.ports.deInEnd = true then decEnd (decOffered s) else decOffered s := by
  rw [decCycle_dec, decClocked, start, if_neg Bool.false_ne_true]
  rfl

theorem decRaises_eq_false_of_decRaisesNo (h : DecRaisesNo e s) : decRaises e s (decCycle s) = false := by
  have h : ¬Accepting s.dec ∨ s.ports.deStart = true ∨ ((decOffered s).phase = .fail ∧ (decOffered s).err ≠ some e) ∨
    ((decOffered s).phase ≠ .fail ∧ (s.ports.deInEnd = false ∨ ¬Accepting (decOffered s) ∨ e ≠ .truncatedFrame)) := h
  rw [accepting_iff, accepting_iff, Bool.not_eq_true, Bool.not_eq_true] at h
  rcases Bool.eq_false_or_eq_true s.ports.deStart with start | noStart
  · exact decRaises_eq_false_of_quiet (.inr start)
  rcases h with rest | start | ⟨failed, other⟩ | ⟨going, noEnd⟩
  · exact decRaises_eq_false_of_quiet (.inl rest)
  · exact decRaises_eq_false_of_quiet (.inr start)
  · have ended : decEnd (decOffered s) = decOffered s := decEnd_at_rest (by rw [failed]; rfl)
    simp [decRaises, decCycle_going noStart, ended, other]
  · rw [decRaises, decCycle_going noStart]
    rcases noEnd with none | rest | other
    · simp [none, going]
    · simp [decEnd_at_rest rest, going]
    · unfold decEnd
      split_ifs
      · simp [decTakeError_eq, decFailed, Ne.symm other]
      all_goals simp [going]

/-- Only `Decode`'s errors are raised by the decoder (R234 to R237, R240). -/
theorem decRaises_errors (h : decRaises e s (decCycle s) = true) :
    e = .malformedFrame ∨ e = .invalidHexDigit ∨ e = .lengthChecksumMismatch ∨ e = .checksumMismatch ∨
      e = .truncatedFrame := by
  have start : s.ports.deStart = false := by
    by_contra started
    simp [decRaises_eq_false_of_quiet (.inr (by simpa using started))] at h
  simp only [decRaises, Bool.and_eq_true, beq_iff_eq, decCycle_going start] at h
  obtain ⟨⟨accepts, failed⟩, raised⟩ := h
  have going : (decOffered s).phase = .fail → (decOffered s).err = some e →
      e = .malformedFrame ∨ e = .invalidHexDigit ∨ e = .lengthChecksumMismatch ∨ e = .checksumMismatch := by
    intro phase err
    unfold decOffered at phase err
    split_ifs at phase err
    · rcases decByte_cases s.ports.deInData s.dec with ⟨rest, -⟩ | ⟨-, -, -, raised⟩ | ⟨-, notFail, -⟩
      · simp [rest] at accepts
      · rw [err] at raised
        simpa only [Option.some_inj] using raised
      · exact absurd phase notFail
    · rw [phase] at accepts
      cases accepts
  split_ifs at failed raised with ended
  · unfold decEnd at failed raised
    split_ifs at failed raised
    · cases raised
      exact .inr (.inr (.inr (.inr rfl)))
    · exact (going failed raised).imp_right (Or.imp_right (Or.imp_right .inl))
  · exact (going failed raised).imp_right (Or.imp_right (Or.imp_right .inl))

/-- A start that is refused (R141), as a cycle of the stand-alone encoder. -/
theorem encCycle_start (start : s.ports.enStart = true) (noAbort : s.ports.enAbort = false)
    (rest : s.enc.phase ≠ .emit) :
    encCycle s = { s with
      enc := encStarted s.ports.enAddr s.ports.enFn s.ports.enPlen s.enc, enTaken := [] } := by
  obtain ⟨-, started, -⟩ := encCycle_spec s
  obtain ⟨enc, taken⟩ := started noAbort rest start
  obtain ⟨r, l, e⟩ := encCycle_frame s
  rw [e] at enc taken ⊢
  rw [← enc, ← taken]

/-- When a start is refused with `e` (R141). -/
theorem encRaises_iff : encRaises e s (encCycle s) = true ↔
    s.ports.enStart = true ∧ s.ports.enAbort = false ∧ s.enc.phase ≠ .emit ∧
      ((15 < s.ports.enAddr.toNat ∧ e = .invalidAddress) ∨
       (s.ports.enAddr.toNat ≤ 15 ∧ 2047 < s.ports.enPlen.toNat ∧ e = .payloadTooLarge)) := by
  obtain ⟨aborted, -⟩ := encCycle_spec s
  simp only [encRaises, Bool.and_eq_true, beq_iff_eq, bne_iff_ne, ne_eq]
  rcases Bool.eq_false_or_eq_true s.ports.enAbort with abort | noAbort
  · simp [aborted abort, abort]
  rcases Bool.eq_false_or_eq_true s.ports.enStart with start | noStart
  case inr => simp [noStart]
  by_cases emitting : s.enc.phase = .emit
  · simp [emitting]
  rw [encCycle_start start noAbort emitting]
  dsimp only [encStarted]
  split_ifs with address length <;> simp [start, noAbort, emitting, address]
  · exact ⟨fun h => .inl h.symm, fun h => h.elim Eq.symm fun ⟨legal, _⟩ => by omega⟩
  · have long : 2047 < s.ports.enPlen.toNat := by omega
    simp only [long, true_and]
    exact ⟨fun h => ⟨by omega, h.symm⟩, fun h => h.2.symm⟩
  · rintro - h
    omega

theorem encRaises_eq_false_of_encRaisesNo (h : EncRaisesNo e s) : encRaises e s (encCycle s) = false := by
  rw [← Bool.not_eq_true, encRaises_iff]
  rintro ⟨start, noAbort, rest, refused⟩
  rcases h with quiet | emitting | abort | ⟨address, length⟩
  · simp [start] at quiet
  · exact rest emitting
  · simp [noAbort] at abort
  · rcases refused with ⟨bad, raised⟩ | ⟨good, long, raised⟩
    · have := address raised; omega
    · have := length raised; omega

/-! ### What an error's word does (log 27) -/

/-- The blocks asked in order: the transaction, the decoder, the encoder, the leaf blocks. -/
def errorTaken (e : ErrorName) (s : State) : State :=
  if e ≠ .truncatedFrame ∧ txnRaises e s (txnCycle s) = true then txnCycle s
  else if decRaises e s (decCycle s) = true then (decCycle s).setResult (.err e)
  else if encRaises e s (encCycle s) = true then (encCycle s).setResult (.err e)
  else if leafShows s e = true then s.setResult (.err e)
  else s

theorem exec_errorWord (e : ErrorName) (s : State) : exec (errorWord e) s = .next (errorTaken e s) := by
  have dec (no : e ≠ .malformedFrame ∧ e ≠ .invalidHexDigit ∧ e ≠ .lengthChecksumMismatch ∧ e ≠ .checksumMismatch ∧
      e ≠ .truncatedFrame) : ¬decRaises e s (decCycle s) = true := fun h => by
    have := decRaises_errors h
    tauto
  have enc (no : e ≠ .invalidAddress ∧ e ≠ .payloadTooLarge) : ¬encRaises e s (encCycle s) = true := fun h => by
    obtain ⟨-, -, -, ⟨-, raised⟩ | ⟨-, -, raised⟩⟩ := encRaises_iff.mp h
    · exact no.1 raised
    · exact no.2 raised
  cases e with
  | ioError =>
    simp only [errorTaken, dec (by decide), enc (by decide), leafShows, if_false, Bool.false_eq_true]
    simp only [ne_eq, reduceCtorEq, not_false_eq_true, true_and]
    rfl
  | responseTimeout =>
    simp only [errorTaken, dec (by decide), enc (by decide), leafShows, if_false, Bool.false_eq_true]
    simp only [ne_eq, reduceCtorEq, not_false_eq_true, true_and]
    rfl
  | invalidHexDigit =>
    simp only [errorTaken, enc (by decide), if_false, Bool.false_eq_true]
    simp only [ne_eq, reduceCtorEq, not_false_eq_true, true_and]
    rfl
  | lengthChecksumMismatch =>
    simp only [errorTaken, enc (by decide), if_false, Bool.false_eq_true]
    simp only [ne_eq, reduceCtorEq, not_false_eq_true, true_and]
    rfl
  | checksumMismatch =>
    simp only [errorTaken, enc (by decide), if_false, Bool.false_eq_true, leafShows, bne_iff_ne, ite_not, ne_eq]
    simp only [reduceCtorEq, not_false_eq_true, true_and]
    rfl
  | malformedFrame =>
    simp only [errorTaken, enc (by decide), if_false, Bool.false_eq_true, leafShows]
    simp only [ne_eq, reduceCtorEq, not_false_eq_true, true_and]
    rfl
  | invalidAddress =>
    simp only [errorTaken, dec (by decide), if_false, Bool.false_eq_true, leafShows]
    simp only [ne_eq, reduceCtorEq, not_false_eq_true, true_and]
    rfl
  | payloadTooLarge =>
    simp only [errorTaken, dec (by decide), if_false, Bool.false_eq_true, leafShows]
    simp only [ne_eq, reduceCtorEq, not_false_eq_true, true_and]
    rfl
  | truncatedFrame =>
    simp only [errorTaken, enc (by decide), if_false, Bool.false_eq_true, leafShows]
    simp only [ne_eq, not_true_eq_false, false_and, if_false]
    rfl

theorem exec_errorWord_of_txnRaises (other : e ≠ .truncatedFrame) (raised : txnRaises e s (txnCycle s) = true) :
    exec (errorWord e) s = .next (txnCycle s) := by
  rw [exec_errorWord, errorTaken, if_pos ⟨other, raised⟩]

/-- Past the transaction. -/
theorem errorTaken_of_txnRaisesNo (no : TxnRaisesNo e s) :
    errorTaken e s =
      if decRaises e s (decCycle s) = true then (decCycle s).setResult (.err e)
      else if encRaises e s (encCycle s) = true then (encCycle s).setResult (.err e)
      else if leafShows s e = true then s.setResult (.err e)
      else s := by
  rw [errorTaken, if_neg]
  rintro ⟨other, raised⟩
  rcases txnRaisesNo_iff.mp no with truncated | quiet
  · exact other truncated
  · rw [raised] at quiet; cases quiet

/-! ### The transaction's errors -/

theorem txnRaises_of_txnFail {t : State} (busy : s.txn.busy = true) (cycle : txnCycle s = txnFail e t) :
    txnRaises e s (txnCycle s) = true := by
  rw [cycle, txnRaises, busy]
  simp [txnFail_eq]

theorem exec_errorWord_of_txnFail {t : State} (busy : s.txn.busy = true) (other : e ≠ .truncatedFrame)
    (cycle : txnCycle s = txnFail e t) : exec (errorWord e) s = .next (txnFail e t) := by
  rw [exec_errorWord_of_txnRaises other (txnRaises_of_txnFail busy cycle), cycle]

end

/-- The bytes a timed-out read leaves stored (R48, R206). -/
theorem txnRead_late {s : State} {c : ChanCycle} (reading : Reading s.txn) (good : c.rxErr = false)
    (late : s.txn.timeout ≤ s.txn.timer) (few : s.txn.cnt.toNat + s.chan.inn.length < readLimit s.txn) :
    ∃ m, txnRead (readLimit s.txn) c s = txnFail .responseTimeout { s with
        chan := { s.chan with inn := [] }
        rxbuf := m
        txn := { s.txn with cnt := BitVec.ofNat 13 (s.txn.cnt.toNat + s.chan.inn.length) } } ∧
      ∀ k, Memory.read m k = if s.txn.cnt.toNat ≤ k ∧ k < s.txn.cnt.toNat + s.chan.inn.length
        then s.chan.inn[k - s.txn.cnt.toNat]? else Memory.read s.rxbuf k := by
  obtain ⟨below, atMost⟩ := cnt_lt_limit reading
  cases offered : s.chan.inn with
  | nil =>
    rw [offered] at few
    obtain ⟨m, drained, -, -, reads⟩ := txnDrain_eq s
    have count : s.txn.cnt + BitVec.ofNat 13 s.chan.inn.length = BitVec.ofNat 13 (s.txn.cnt.toNat + ([] : List Byte).length) := by
      rw [offered]
      simp
    refine ⟨m, ?_, fun k => ?_⟩
    · rw [txnRead_nothing good offered, txnDeadline_late c late (by rw [offered]; exact few), drained, count]
    · rw [reads (by rw [Config.rxbufSize, offered]; simp at few ⊢; omega), offered]
  | cons b more =>
    rw [offered, List.length_cons] at few
    have counted := cnt_txnTake (s := s) b more (by omega)
    have stored := read_txnTake (s := s) b more (by omega)
    obtain ⟨m, drained, -, -, reads⟩ := txnDrain_eq (txnTake b more s)
    have left : (txnTake b more s).chan.inn = more := rfl
    rw [left, counted] at reads
    have count : (txnTake b more s).txn.cnt + BitVec.ofNat 13 more.length =
        BitVec.ofNat 13 (s.txn.cnt.toNat + (b :: more).length) := by
      rw [List.length_cons]
      bv_omega
    refine ⟨m, ?_, fun k => ?_⟩
    · rw [txnRead_byte good offered, if_neg (by omega), txnDeadline_late (s := txnTake b more s) c late (by rw [counted, left]; omega), drained,
        left, count]
      rfl
    · rw [reads (by rw [Config.rxbufSize]; omega), stored, List.length_cons]
      by_cases first : k = s.txn.cnt.toNat
      · subst first
        rw [if_neg (by omega), if_pos rfl, if_pos (by omega), Nat.sub_self, List.getElem?_cons_zero]
      by_cases later : s.txn.cnt.toNat + 1 ≤ k ∧ k < s.txn.cnt.toNat + 1 + more.length
      · rw [if_pos later, if_pos (by omega), show k - s.txn.cnt.toNat = k - (s.txn.cnt.toNat + 1) + 1 by omega,
          List.getElem?_cons_succ]
      · rw [if_neg later, if_neg first, if_neg (by omega)]

/-- Settles O30: the cycle of the write or of the read that ends in a channel error. -/
theorem channelErrorsTaken : Obligations.ChannelErrorsTaken := by
  unfold Obligations.ChannelErrorsTaken
  intro s c ch
  refine ⟨fun busy state phase error => ?write, fun reading error => ?read, fun reading good late few => ?timeout⟩
  case write =>
    have cycle : txnCycle s = txnFail .ioError
        { txnOffered c (txnArrive s) with txnEnc := encAbort (txnOffered c (txnArrive s)).txnEnc } := by
      rw [txnCycle_write busy state, txnWrite_emitting (s := txnArrive s) (c := c) phase, if_pos error]
    refine (exec_errorWord_of_txnFail (e := .ioError) busy (by decide) cycle).trans (congrArg _ ?_)
    rw [txnOffered_eq]
    rfl
  case read =>
    have cycle := (txnCycle_reading reading).trans (txnRead_failed (s := txnArrive s) error)
    exact ⟨_, exec_errorWord_of_txnFail (e := .ioError) reading.1 (by decide) cycle⟩
  case timeout =>
    obtain ⟨m, late, reads⟩ := txnRead_late (s := txnArrive s) reading good late few
    exact ⟨m, exec_errorWord_of_txnFail (e := .responseTimeout) reading.1 (by decide)
      ((txnCycle_reading reading).trans late), reads⟩

/-- Settles O33: the failing cycles of T2, T4 and T6. -/
theorem exchangeErrorsTaken : Obligations.ExchangeErrorsTaken := by
  unfold Obligations.ExchangeErrorsTaken
  intro s busy ch taken
  have taken_of {e : ErrorName} {d : DecUnit} (other : e ≠ .truncatedFrame)
      (cycle : txnCycle s = txnFail e ((txnArrive s).setTxnDec d)) : taken e d :=
    exec_errorWord_of_txnFail busy other cycle
  refine ⟨fun e allowed state phase err => ?encode, fun h state read four stored => ?length,
    fun raw e pos state length read stored verdict other => ?reply⟩
  case encode =>
    refine taken_of (by rcases allowed with rfl | rfl <;> decide) ?_
    exact (txnCycle_write busy state).trans (txnWrite_refused (s := txnArrive s) phase err)
  case length =>
    have cycle := txnCycle_length busy state read
    have length := headerLength_stored (s := txnArrive s) four stored
    refine ⟨fun bad => taken_of (by decide) (cycle.trans ?_),
      fun w value mismatch => taken_of (by decide) (cycle.trans ?_)⟩
    · rw [bad] at length
      rw [txnLength, length]
      rfl
    · rw [value] at length
      simp only [mismatch, if_false] at length
      rw [txnLength, length]
      rfl
  case reply =>
    obtain ⟨t, -, decoded, stands⟩ := txnDecode_refused (s := txnArrive s) length stored verdict other
    refine ⟨decFailed e t, taken_of other ?_, rfl, rfl, stands, read_nil⟩
    exact (txnCycle_decode busy state (by omega)).trans decoded

/-! ### The decoder's, the encoder's and the leaf blocks' errors -/

section
variable {e : ErrorName} {s : State} {d : DecUnit}

theorem decCycle_eq_of_dec (h : (decCycle s).dec = d) : decCycle s = { s with dec := d } := by
  obtain ⟨d', e⟩ := decCycle_frame s
  rw [e] at h ⊢
  rw [← h]

/-- The decoder's cycle fails with `e`, and the transaction's does not. -/
theorem exec_errorWord_of_decFailed (no : TxnRaisesNo e s) (accepts : decAccepts s.dec.phase = true)
    (failed : (decCycle s).dec = decFailed e d) :
    exec (errorWord e) s = .next { s with dec := decFailed e d, result := some (.err e) } := by
  have raised : decRaises e s (decCycle s) = true := by simp [decRaises, accepts, failed, decFailed]
  rw [exec_errorWord, errorTaken_of_txnRaisesNo no, if_pos raised, decCycle_eq_of_dec failed]
  rfl

/-- A byte that fails a decode, whether the end comes in the same cycle or not. -/
theorem decCycle_of_failed_byte (start : s.ports.deStart = false) (valid : s.ports.deInValid = true)
    (failed : decByte s.ports.deInData s.dec = decFailed e d) : (decCycle s).dec = decFailed e d := by
  rw [decCycle_going start, decOffered, if_pos valid, failed, decEnd_at_rest rfl, ite_self]

/-- Settles O31: the bytes and the end that fail a decode. -/
theorem decoderErrorsTaken : Obligations.DecoderErrorsTaken := by
  unfold Obligations.DecoderErrorsTaken
  intro s start c taken
  have byte {e : ErrorName} {d : DecUnit} (valid : s.ports.deInValid = true) (accepts : decAccepts s.dec.phase = true)
      (failed : decByte c s.dec = decFailed e d) : taken e d := fun no =>
    exec_errorWord_of_decFailed no accepts (decCycle_of_failed_byte start valid failed)
  have ended {d : DecUnit} (ending : s.ports.deInEnd = true) (offered : decOffered s = d)
      (accepts : decAccepts s.dec.phase = true) (still : decAccepts d.phase = true) : taken .truncatedFrame d := fun no =>
    exec_errorWord_of_decFailed no accepts (by
      rw [decCycle_going start, if_pos ending, offered, decEnd, if_pos still, decTakeError_eq])
  refine ⟨fun valid => ⟨fun phase marker => ?soi, fun phase marker => ?eoi, fun phase bad => ?digit,
    fun v value phase last => ⟨fun mismatch => ?nibble, fun good odd => ?odd⟩, fun v value phase last mismatch => ?sum⟩,
    fun ending ready => ⟨fun none => ?endAlone, fun valid still => ?endAfter⟩⟩
  case soi => exact byte valid (accepts_of_phase phase rfl) ((decByte_soi c phase).trans (if_neg marker))
  case eoi => exact byte valid (accepts_of_phase phase rfl) ((decByte_eoi c phase).trans (if_neg marker))
  case digit =>
    exact byte valid (accepts_of_digit_phase phase) (decByte_of_not_digit (decodeNibble_eq_none_of_hexValue bad) phase)
  case nibble =>
    exact byte valid (accepts_of_phase phase rfl)
      ((decByte_header_last (decodeNibble_of_hexValue value) phase (congrArg BitVec.toNat last)).trans (if_pos mismatch))
  case odd =>
    exact byte valid (accepts_of_phase phase rfl)
      ((decByte_header_last (decodeNibble_of_hexValue value) phase (congrArg BitVec.toNat last)).trans
        ((if_neg (not_not.mpr good)).trans (if_pos odd)))
  case sum =>
    exact byte valid (accepts_of_phase phase rfl)
      ((decByte_checksum_digit (decodeNibble_of_hexValue value) phase).trans
        ((if_neg (not_not.mpr last)).trans (if_neg mismatch)))
  case endAlone =>
    exact ended ending (if_neg (by rw [none]; decide)) ready ready
  case endAfter =>
    have accepts : decAccepts s.dec.phase = true := ready
    exact ended ending (if_pos valid) accepts still

/-- Settles O32: the refused starts, and the leaf blocks asked last. -/
theorem encoderAndLeafErrorsTaken : Obligations.EncoderAndLeafErrorsTaken := by
  unfold Obligations.EncoderAndLeafErrorsTaken
  intro s
  refine ⟨fun start noAbort rest => ?encoder, fun e noTxn noDec shown => ?leaf⟩
  case encoder =>
    intro started
    have refused {e : ErrorName} (no : TxnRaisesNo e s) (raised : encRaises e s (encCycle s) = true)
        (notDec : decRaises e s (decCycle s) = false) :
        exec (errorWord e) s = .next { s with enc := started, enTaken := [], result := some (.err e) } := by
      rw [exec_errorWord, errorTaken_of_txnRaisesNo no, notDec, if_neg Bool.false_ne_true, if_pos raised,
        encCycle_start start noAbort rest]
      rfl
    have notDec {e : ErrorName} (h : e = .invalidAddress ∨ e = .payloadTooLarge) :
        decRaises e s (decCycle s) = false := by
      rw [← Bool.not_eq_true]
      intro raised
      have := decRaises_errors raised
      rcases h with rfl | rfl <;> simp at this
    exact ⟨fun no bad => refused no (encRaises_iff.mpr ⟨start, noAbort, rest, .inl ⟨bad, rfl⟩⟩) (notDec (.inl rfl)),
      fun no good long =>
        refused no (encRaises_iff.mpr ⟨start, noAbort, rest, .inr ⟨good, long, rfl⟩⟩) (notDec (.inr rfl))⟩
  case leaf =>
    have notEnc : encRaises e s (encCycle s) = false := by
      rw [← Bool.not_eq_true, encRaises_iff]
      rintro ⟨-, -, -, ⟨-, rfl⟩ | ⟨-, -, rfl⟩⟩ <;> simp at shown
    have shows : leafShows s e = true := by
      rw [← Bool.not_eq_false, ← leafRaisesNo_iff]
      rintro ⟨hex, length, sum⟩
      rcases shown with ⟨rfl, high⟩ | ⟨rfl, low⟩ | ⟨rfl, mismatch⟩
      · simp [hex rfl] at high
      · simp [length rfl] at low
      · exact mismatch (sum rfl)
    rw [exec_errorWord, errorTaken_of_txnRaisesNo noTxn, decRaises_eq_false_of_decRaisesNo noDec, notEnc, shows,
      if_neg Bool.false_ne_true, if_neg Bool.false_ne_true, if_pos rfl]
    rfl

/-- Settles O34: no block asked raises it. -/
theorem errorWordsWithoutCause : Obligations.ErrorWordsWithoutCause := by
  unfold Obligations.ErrorWordsWithoutCause
  intro s e noTxn noDec noEnc noLeaf
  rw [exec_errorWord, errorTaken_of_txnRaisesNo noTxn, decRaises_eq_false_of_decRaisesNo noDec,
    encRaises_eq_false_of_encRaisesNo noEnc, leafRaisesNo_iff.mp noLeaf, if_neg Bool.false_ne_true,
    if_neg Bool.false_ne_true, if_neg Bool.false_ne_true]

/-- Only the transaction's own cycle ends an exchange: the other blocks leave its registers alone. -/
theorem errorTaken_ends (busy : s.txn.busy = true) (ended : (errorTaken e s).txn.busy = false) :
    errorTaken e s = txnCycle s ∧ (txnCycle s).txn.err = some e := by
  unfold errorTaken at ended ⊢
  by_cases raised : e ≠ .truncatedFrame ∧ txnRaises e s (txnCycle s) = true
  · rw [if_pos raised]
    have taken := raised.2
    simp only [txnRaises, Bool.and_eq_true, beq_iff_eq] at taken
    exact ⟨rfl, taken.2⟩
  · rw [if_neg raised] at ended
    obtain ⟨d, dec⟩ := decCycle_frame s
    obtain ⟨r, l, enc⟩ := encCycle_frame s
    rw [dec, enc] at ended
    split_ifs at ended <;> simp [busy] at ended

/-- Settles O35: both words are then the transaction's own cycle. -/
theorem transactionErrorIsItsOwnCycle : Obligations.TransactionErrorIsItsOwnCycle := by
  unfold Obligations.TransactionErrorIsItsOwnCycle
  intro s t e busy
  refine ⟨fun word ended => ?taken, fun word ended err other => ?raised⟩
  case taken =>
    rw [exec_errorWord] at word
    cases word
    obtain ⟨own, err⟩ := errorTaken_ends busy ended
    rw [own]
    exact ⟨exec_own_stateWord s, err⟩
  case raised =>
    rw [exec_own_stateWord] at word
    cases word
    refine exec_errorWord_of_txnRaises other ?_
    simp [txnRaises, busy, ended, err]

end

end Sys2Proof.Proofs
end

section
/-! PROOFS. An exchange that `execute` runs, in closed form: where it stands between two clock cycles, and what the next cycle
makes of it (R190, R199, R206; logs 8, 9, 10). -/

namespace Sys2Proof.Proofs

open Sys2Proof Sys2Proof.Machine Sys2Proof.Safety Sys2Proof.Laws

/-! ### Where an exchange stands -/

/-- Where an exchange stands between two cycles: its operands refused, `k` bytes of the frame written, the frame written, or
a read (of the header region, or of a payload of the declared length) with these bytes stored and its timer. -/
inductive Exchange where
  | refused (e : ErrorName)
  | writing (k : Nat)
  | sent
  | reading (n : Option Len12) (got : List Byte) (timer : BitVec 32)

/-- How many bytes have been stored when the read is complete. -/
def wanted : Option Len12 → Nat
  | none => 18
  | some l => 18 + l.toNat

/-- The operands that `Encode` accepts (R141). -/
def LegalOperands (p : InPorts) : Prop := p.tAddr.toNat ≤ 15 ∧ p.tPlen.toNat ≤ 2047

/-- The length of the frame of the operands (R142). -/
def frameLength (p : InPorts) : Nat := 18 + 2 * p.tPlen.toNat

/-- What holds of an exchange wherever it stands. -/
def Exchange.Valid (p : InPorts) : Exchange → Prop
  | .refused e =>
    (15 < p.tAddr.toNat ∧ e = .invalidAddress) ∨
      (p.tAddr.toNat ≤ 15 ∧ 2047 < p.tPlen.toNat ∧ e = .payloadTooLarge)
  | .writing k => LegalOperands p ∧ k < frameLength p
  | .sent => LegalOperands p
  | .reading none got _ => LegalOperands p ∧ got.length ≤ 18
  | .reading (some l) got _ =>
    LegalOperands p ∧ 18 ≤ got.length ∧ got.length ≤ 18 + l.toNat ∧ headerLength got = .ok l

/-- The bytes an exchange has stored in `RXBUF`. -/
def Exchange.got : Exchange → List Byte
  | .reading _ got _ => got
  | .refused _ | .writing _ | .sent => []

/-- How many bytes of the frame an exchange has written. -/
def Exchange.written (p : InPorts) : Exchange → Nat
  | .refused _ => 0
  | .writing k => k
  | .sent | .reading .. => frameLength p

/-- The frame of the operands at the ports. -/
def exchangeFrame (s : State) : List Byte := frameBytes s.ports.tAddr s.ports.tFn (executePayload s)

/-- The transaction registers once `start` has latched the operands (R199). -/
def latched (s : State) : TxnRegs :=
  { s.txn with
    state := .idle, busy := true, adr := s.ports.tAddr, fn := s.ports.tFn, reqlen := s.ports.tPlen
    timeout := s.ports.tTimeout, err := none }

def exchangeTxn (s : State) : Exchange → TxnRegs
  | .refused _ | .writing _ => latched s
  | .sent => { latched s with state := .sent }
  | .reading n got timer =>
    { latched s with
      state := if n.isNone then .awaitingHeader else .awaitingPayload
      cnt := BitVec.ofNat 13 got.length, timer := timer, n := n.getD s.txn.n }

def exchangeEnc (s : State) : Exchange → EncRegs
  | .refused _ => encStarted s.ports.tAddr s.ports.tFn s.ports.tPlen s.txnEnc
  | .writing k => encAfter s.ports.tAddr s.ports.tFn (executePayload s) k
  | .sent | .reading .. => encAfter s.ports.tAddr s.ports.tFn (executePayload s) (frameLength s.ports)

/-- `RXBUF` once these bytes are stored from index 0 on. -/
def storedIn (m : Memory) (got : List Byte) : Memory :=
  got.zipIdx.foldl (fun m b => Memory.writeIn Config.rxbufSize m b.2 b.1) m

/-- The state of an exchange that started from `s`, with `inn` unread and `future` to come. -/
def exchangeState (s : State) (x : Exchange) (inn : List Byte) (future : List ChanCycle) : State :=
  { s with
    chan := { out := s.chan.out ++ (exchangeFrame s).take (x.written s.ports), inn := inn, future := future }
    txn := exchangeTxn s x
    txnEnc := exchangeEnc s x
    rxbuf := storedIn s.rxbuf x.got
    result := none }

/-! ### What a cycle makes of it -/

/-- What a cycle makes of an exchange: it goes on, or it fails with an error, in the write (`k` bytes written by then) or in
a read (the unread input a free value), or the reply is decoded. -/
inductive Ahead where
  | going (x : Exchange) (inn : List Byte)
  | failed (e : ErrorName) (x : Exchange) (inn : List Byte)
  | writeFailed (k : Nat) (inn : List Byte)
  | readFailed (x : Exchange)
  | decoded (l : Len12) (got : List Byte) (timer : BitVec 32) (inn : List Byte)

/-- A cycle `c` of a read that is not complete, `inn` being there: it fails, it times out, or it takes the front byte. -/
def readAhead (p : InPorts) (c : ChanCycle) (n : Option Len12) (got : List Byte) (timer : BitVec 32) (inn : List Byte) :
    Ahead :=
  if c.rxErr = true then .readFailed (.reading n got timer)
  else if p.tTimeout ≤ timer ∧ got.length + inn.length < wanted n then
    .failed .responseTimeout (.reading n (got ++ inn) timer) []
  else
    .going (.reading n (got ++ inn.take 1)
      (if (got ++ inn.take 1).length ≠ wanted n ∧ c.tick = true ∧ timer.toNat < 2 ^ 32 - 1 then timer + 1 else timer))
      (inn.drop 1)

/-- A cycle `c` of an exchange, the bytes that arrive in it being in `inn` (R199). -/
def Exchange.ahead (p : InPorts) (c : ChanCycle) (inn : List Byte) : Exchange → Ahead
  | .refused e => .failed e (.refused e) inn
  | .writing k =>
    let k' := if c.txReady then k + 1 else k
    if c.txErr = true then .writeFailed k' inn
    else if k' = frameLength p then .going .sent inn else .going (.writing k') inn
  | .sent => .going (.reading none [] 0) inn
  | .reading none got timer =>
    if got.length < 18 then readAhead p c none got timer inn
    else
      match headerLength got with
      | .error e => .failed e (.reading none got timer) inn
      | .ok l => .going (.reading (some l) got 0) inn
  | .reading (some l) got timer =>
    if got.length < 18 + l.toNat then readAhead p c (some l) got timer inn else .decoded l got timer inn

/-- The state after a cycle. -/
def aheadState (s : State) (future : List ChanCycle) : Ahead → State
  | .going x inn => exchangeState s x inn future
  | .failed e x inn => txnFail e (exchangeState s x inn future)
  | .writeFailed k inn =>
    txnFail .ioError
      { exchangeState s (.writing k) inn future with txnEnc := encAbort (exchangeEnc s (.writing k)) }
  | .readFailed x =>
    txnFail .ioError { exchangeState s x (Config.inputAfterIoError s.draws) future with draws := s.draws + 1 }
  | .decoded l got timer inn =>
    let t := (exchangeState s (.reading (some l) got timer) inn future).setTxnDec (decRun got (decStart s.txnDec)).1
    match decodeFrame got with
    | .ok reply _ =>
      { t with
        txn := { t.txn with
          state := .complete
          busy := false
          status := reply.status
          rplen := BitVec.ofNat 11 reply.payload.length
          ver := reply.version
          radr := reply.address
          dev := reply.deviceType }
        result := some (.ok (.reply reply)) }
    | .err e _ => txnFail e t

/-! ### The stored bytes -/

theorem storedIn_append (m : Memory) (got : List Byte) (b : Byte) :
    storedIn m (got ++ [b]) = Memory.writeIn Config.rxbufSize (storedIn m got) got.length b := by
  simp [storedIn, List.zipIdx_append, List.foldl_append]

theorem read_storedIn (m : Memory) {got : List Byte} (room : got.length ≤ 4113) (k : Nat) :
    Memory.read (storedIn m got) k = if k < got.length then got[k]? else Memory.read m k := by
  induction got using List.reverseRecOn with
  | nil => rfl
  | append_singleton got b ih =>
    rw [List.length_append, List.length_singleton] at room ⊢
    rw [storedIn_append, read_writeIn, ih (by omega)]
    by_cases last : k = got.length
    · subst last
      rw [if_pos ⟨rfl, by rw [Config.rxbufSize]; omega⟩, if_pos (by omega), List.getElem?_concat_length]
    · rw [if_neg (fun h => last h.1.symm)]
      by_cases inside : k < got.length
      · rw [if_pos inside, if_pos (by omega), List.getElem?_append_left inside]
      · rw [if_neg inside, if_neg (by omega)]

theorem stored_storedIn (m : Memory) {got : List Byte} (room : got.length ≤ 4113) : Stored (storedIn m got) got :=
  fun k inside => by rw [read_storedIn m room, if_pos inside]

section
variable {s : State} {inn : List Byte} {future : List ChanCycle} {c : ChanCycle}

theorem rxBytes_exchangeState {x : Exchange} (room : x.got.length ≤ 4113) :
    rxBytes (exchangeState s x inn future) x.got.length = x.got := rxBytes_stored (stored_storedIn s.rxbuf room)

theorem wanted_le (n : Option Len12) : wanted n ≤ 4113 := by
  cases n with
  | none => exact (by decide : 18 ≤ 4113)
  | some l => have := l.isLt; rw [wanted]; omega

theorem cnt_reading {n : Option Len12} {got : List Byte} {timer : BitVec 32} (room : got.length ≤ 4113) :
    (exchangeTxn s (.reading n got timer)).cnt.toNat = got.length :=
  (BitVec.toNat_ofNat _ _).trans (Nat.mod_eq_of_lt (by omega))

theorem readLimit_exchange (n : Option Len12) (got : List Byte) (timer : BitVec 32) :
    readLimit (exchangeTxn s (.reading n got timer)) = wanted n := by
  cases n <;> rfl

theorem reading_exchange {n : Option Len12} {got : List Byte} {timer : BitVec 32} (more : got.length < wanted n) :
    Reading (exchangeTxn s (.reading n got timer)) := by
  have count := cnt_reading (s := s) (n := n) (timer := timer) (got := got) (by have := wanted_le n; omega)
  refine ⟨rfl, ?_⟩
  cases n with
  | none => exact .inl ⟨rfl, by rw [count]; exact more⟩
  | some l => exact .inr ⟨rfl, by rw [count]; exact more⟩

/-! ### The cycle, step by step -/

/-- The channel's share of a cycle, whether the environment has something left to do or not (R44; log 8). -/
theorem nextCycle_eq (c : Channel) :
    nextCycle c = (c.future.headD .quiet,
      { c with inn := c.inn ++ (c.future.headD .quiet).arrive, future := c.future.tail }) := by
  obtain ⟨out, inn, future⟩ := c
  cases future with
  | nil => simp [nextCycle, ChanCycle.quiet]
  | cons c cs => rfl

theorem txnArrive_exchangeState (x : Exchange) :
    txnArrive (exchangeState s x inn future) = exchangeState s x (inn ++ (future.headD .quiet).arrive) future.tail := by
  rw [txnArrive, nextCycle_eq]
  rfl

theorem length_executePayload (s : State) : (executePayload s).length = s.ports.tPlen.toNat := length_payloadOf ..

theorem length_exchangeFrame (s : State) : (exchangeFrame s).length = frameLength s.ports := by
  rw [exchangeFrame, length_frameBytes, length_executePayload, frameLength]

theorem encodeFrame_operands (legal : LegalOperands s.ports) :
    encodeFrame s.ports.tAddr s.ports.tFn (executePayload s) = .ok (exchangeFrame s) :=
  encodeFrame_legal _ legal.1 (by rw [length_executePayload]; exact legal.2)

/-- A byte of the frame offered to the transport, taken or not. -/
theorem txnOffered_exchangeState {k : Nat} (valid : (Exchange.writing k).Valid s.ports) :
    txnOffered c (exchangeState s (.writing k) inn future) =
      exchangeState s (.writing (if c.txReady then k + 1 else k)) inn future := by
  obtain ⟨⟨-, plen⟩, more⟩ := valid
  cases ready : c.txReady with
  | false =>
    simp only [txnOffered, ready, Bool.false_eq_true, if_false]
  | true =>
    have byte := getElem?_frameBytes_encData (payloadByte s) s.ports.tAddr s.ports.tFn plen more
    have next := encEmit_encAfter (payloadByte s) s.ports.tAddr s.ports.tFn plen more
    have out : (exchangeFrame s).take (k + 1) = (exchangeFrame s).take k ++ [encData (payloadByte s)
        (encAfter s.ports.tAddr s.ports.tFn (executePayload s) k)] := by
      rw [List.take_add_one, exchangeFrame, executePayload_eq, byte]
      rfl
    have put : txnPut (exchangeState s (.writing k) inn future) = exchangeState s (.writing (k + 1)) inn future := by
      change { exchangeState s (.writing k) inn future with
        chan := { out := (s.chan.out ++ (exchangeFrame s).take k) ++ [encData (payloadByte s)
          (encAfter s.ports.tAddr s.ports.tFn (executePayload s) k)], inn := inn, future := future }
        txnEnc := encEmit (payloadByte s) (encAfter s.ports.tAddr s.ports.tFn (executePayload s) k) } = _
      rw [executePayload_eq, next, ← executePayload_eq, List.append_assoc, ← out]
      rfl
    simp only [txnOffered, ready, if_true, put]

theorem txnWrite_exchangeState {k : Nat} (valid : (Exchange.writing k).Valid s.ports) :
    txnWrite c (exchangeState s (.writing k) inn future) =
      aheadState s future ((Exchange.writing k).ahead s.ports c inn) := by
  have emitting : (exchangeState s (.writing k) inn future).txnEnc.phase = .emit :=
    phase_encAfter_emit _ _ (by rw [length_executePayload]; exact valid.2)
  have k'_le : (if c.txReady = true then k + 1 else k) ≤ frameLength s.ports := by
    have := valid.2
    split <;> omega
  rw [txnWrite_emitting emitting, txnOffered_exchangeState valid]
  generalize hk : (if c.txReady = true then k + 1 else k) = k' at k'_le
  simp only [Exchange.ahead, hk]
  by_cases error : c.txErr = true
  · rw [if_pos error, if_pos error]
    rfl
  rw [if_neg error, if_neg error]
  by_cases all : k' = frameLength s.ports
  · subst all
    have done : (exchangeState s (.writing (frameLength s.ports)) inn future).txnEnc.phase = .done := by
      have ended := phase_encAfter_done s.ports.tAddr s.ports.tFn (executePayload s)
      rwa [length_executePayload] at ended
    rw [if_pos done, if_pos rfl]
    rfl
  · have still : (exchangeState s (.writing k') inn future).txnEnc.phase = .emit :=
      phase_encAfter_emit _ _ (by rw [length_executePayload]; exact lt_of_le_of_ne k'_le all)
    rw [if_neg (by rw [still]; decide), if_neg all]
    rfl

/-- Storing a byte of a read. -/
theorem txnStore_exchangeState {n : Option Len12} {got : List Byte} {timer : BitVec 32} (b : Byte)
    (room : got.length < 4113) :
    txnStore (exchangeState s (.reading n got timer) inn future) b =
      exchangeState s (.reading n (got ++ [b]) timer) inn future := by
  have count := cnt_reading (s := s) (n := n) (timer := timer) room.le
  have next : (exchangeTxn s (.reading n got timer)).cnt + 1 = BitVec.ofNat 13 (got ++ [b]).length := by
    rw [List.length_append, List.length_singleton]
    exact BitVec.eq_of_toNat_eq (by simp [BitVec.toNat_add, count])
  change { exchangeState s (.reading n got timer) inn future with
    rxbuf := Memory.writeIn Config.rxbufSize (storedIn s.rxbuf got) (exchangeTxn s (.reading n got timer)).cnt.toNat b
    txn := { exchangeTxn s (.reading n got timer) with cnt := (exchangeTxn s (.reading n got timer)).cnt + 1 } } = _
  rw [count, next, ← storedIn_append]
  rfl

theorem foldl_txnStore_exchangeState {n : Option Len12} {got : List Byte} {timer : BitVec 32} (bs : List Byte)
    (room : got.length + bs.length ≤ 4113) :
    bs.foldl txnStore (exchangeState s (.reading n got timer) inn future) =
      exchangeState s (.reading n (got ++ bs) timer) inn future := by
  induction bs generalizing got with
  | nil => rw [List.append_nil, List.foldl_nil]
  | cons b bs ih =>
    rw [List.length_cons] at room
    rw [List.foldl_cons, txnStore_exchangeState b (by omega), ih (by simp; omega), List.append_assoc,
      List.singleton_append]

theorem txnDrain_exchangeState {n : Option Len12} {got : List Byte} {timer : BitVec 32}
    (room : got.length + inn.length ≤ 4113) :
    txnDrain (exchangeState s (.reading n got timer) inn future) =
      exchangeState s (.reading n (got ++ inn) timer) [] future := by
  rw [txnDrain, show (exchangeState s (.reading n got timer) inn future).chan.inn = inn from rfl,
    foldl_txnStore_exchangeState inn room]
  rfl

theorem txnTake_exchangeState {n : Option Len12} {got : List Byte} {timer : BitVec 32} {b : Byte} {rest : List Byte}
    (room : got.length < 4113) :
    txnTake b rest (exchangeState s (.reading n got timer) (b :: rest) future) =
      exchangeState s (.reading n (got ++ [b]) timer) rest future := by
  change txnStore (exchangeState s (.reading n got timer) rest future) b = _
  exact txnStore_exchangeState b room

theorem txnRead_exchangeState {n : Option Len12} {got : List Byte} {timer : BitVec 32} (more : got.length < wanted n) :
    txnRead (wanted n) c (exchangeState s (.reading n got timer) inn future) =
      aheadState s future (readAhead s.ports c n got timer inn) := by
  have limit := wanted_le n
  have count := cnt_reading (s := s) (n := n) (timer := timer) (got := got) (by omega)
  have wants := readLimit_exchange (s := s) n got timer
  have reading := reading_exchange (s := s) (timer := timer) more
  unfold readAhead
  cases error : c.rxErr with
  | true => rw [if_pos rfl, txnRead_failed error]; rfl
  | false =>
    rw [if_neg Bool.false_ne_true]
    by_cases late : s.ports.tTimeout ≤ timer ∧ got.length + inn.length < wanted n
    · rw [if_pos late]
      obtain ⟨reached, few⟩ := late
      cases inn with
      | nil =>
        have drained := txnDrain_exchangeState (s := s) (future := future) (n := n) (timer := timer) (got := got)
          (inn := []) (by simp; omega)
        rw [txnRead_nothing error rfl, txnDeadline_late c reached (by rw [← count] at few; exact few), drained]
        rfl
      | cons b rest =>
        rw [List.length_cons] at few
        have counted := cnt_reading (s := s) (n := n) (timer := timer) (got := got ++ [b]) (by simp; omega)
        rw [List.length_append, List.length_singleton] at counted
        have left : (exchangeState s (.reading n (got ++ [b]) timer) rest future).txn.cnt.toNat = got.length + 1 := counted
        rw [txnRead_byte (s := exchangeState s (.reading n got timer) (b :: rest) future) error rfl,
          txnTake_exchangeState (by omega), if_neg (by rw [left]; omega),
          txnDeadline_late (s := exchangeState s (.reading n (got ++ [b]) timer) rest future) c reached
            (by rw [left]; change _ + rest.length < _; omega),
          txnDrain_exchangeState (by simp; omega), List.append_assoc]
        rfl
    · rw [if_neg late]
      have going : timer < s.ports.tTimeout ∨ wanted n ≤ got.length + inn.length := by
        by_cases early : timer < s.ports.tTimeout
        · exact .inl early
        · exact .inr (Nat.le_of_not_lt fun few => late ⟨BitVec.not_lt.mp early, few⟩)
      cases inn with
      | nil =>
        have early : timer < s.ports.tTimeout := going.resolve_right (by simp; omega)
        rw [txnRead_nothing error rfl, txnDeadline_going (s := exchangeState s (.reading n got timer) [] future) c (.inl early)]
        have unfinished : got.length ≠ wanted n := by omega
        simp only [List.take_nil, List.append_nil, ne_eq, unfinished, not_false_eq_true, true_and, List.drop_nil]
        rfl
      | cons b rest =>
        have counted := cnt_reading (s := s) (n := n) (timer := timer) (got := got ++ [b]) (by simp; omega)
        rw [List.length_append, List.length_singleton] at counted
        have left : (exchangeState s (.reading n (got ++ [b]) timer) rest future).txn.cnt.toNat = got.length + 1 := counted
        rw [List.length_cons] at going
        rw [txnRead_byte (s := exchangeState s (.reading n got timer) (b :: rest) future) error rfl,
          txnTake_exchangeState (by omega), left]
        simp only [List.take_succ_cons, List.take_zero, List.drop_succ_cons, List.drop_zero, List.length_append,
          List.length_singleton]
        by_cases last : got.length + 1 = wanted n
        · rw [if_pos last, if_neg (fun h => h.1 last)]
          rfl
        · rw [if_neg last, txnDeadline_going (s := exchangeState s (.reading n (got ++ [b]) timer) rest future) c
            (going.imp_right fun all => by rw [left]; change _ ≤ _ + rest.length; omega)]
          simp only [ne_eq, last, not_false_eq_true, true_and]
          rfl

end

end Sys2Proof.Proofs
end

section
/-! PROOFS. The cycles of an exchange, in closed form, and what they keep (R190, R199). -/

namespace Sys2Proof.Proofs

open Sys2Proof Sys2Proof.Machine Sys2Proof.Safety Sys2Proof.Laws

/-! ### The functional level's errors (R160, R194) -/

theorem scanHex_some {raw : List Byte} {i count j : Nat} {e : ErrorName} (h : scanHex raw i count = some (e, j)) :
    (e = .truncatedFrame ∧ raw.length ≤ j ∧ j < i + count) ∨ e = .invalidHexDigit := by
  induction count generalizing i with
  | zero => cases h
  | succ count ih =>
    unfold scanHex at h
    split at h
    next missing =>
      cases h
      exact .inl ⟨rfl, List.getElem?_eq_none_iff.mp missing, by omega⟩
    next c here =>
      split at h
      · exact (ih h).imp_left fun ⟨truncated, short, upper⟩ => ⟨truncated, short, by omega⟩
      · cases h
        exact .inr rfl

/-- Every error of `Decode`, and that it misses no byte where the declared length is there. -/
theorem decodeFrame_err {raw : List Byte} {e : ErrorName} {pos : Nat} (h : decodeFrame raw = .err e pos) :
    (e = .malformedFrame ∨ e = .invalidHexDigit ∨ e = .lengthChecksumMismatch ∨ e = .checksumMismatch) ∨
    (e = .truncatedFrame ∧
      (raw.length < 13 ∨ ∃ l : Len12, lengthFieldCheck (wordAt raw 9) = some l ∧ raw.length < 18 + l.toNat)) := by
  have scanned {i count : Nat} (found : scanHex raw i count = some (e, pos)) :
      (e = .truncatedFrame ∧ raw.length < i + count) ∨ e = .invalidHexDigit :=
    (scanHex_some found).imp_left fun ⟨truncated, short, upper⟩ => ⟨truncated, by omega⟩
  unfold decodeFrame at h
  split at h
  next missing =>
    cases h
    exact .inr ⟨rfl, .inl (by have := List.getElem?_eq_none_iff.mp missing; omega)⟩
  next c soi =>
    split_ifs at h
    · cases h; exact .inl (.inl rfl)
    split at h
    next e' j found =>
      cases h
      rcases scanned found with ⟨truncated, short⟩ | bad
      · exact .inr ⟨truncated, .inl short⟩
      · exact .inl (.inr (.inl bad))
    unfold decodeBody at h
    split at h
    · cases h; exact .inl (.inr (.inr (.inl rfl)))
    next l length =>
      split_ifs at h
      · cases h; exact .inl (.inl rfl)
      split at h
      next e' j found =>
        cases h
        rcases scanned found with ⟨truncated, short⟩ | bad
        · exact .inr ⟨truncated, .inr ⟨l, length, by omega⟩⟩
        · exact .inl (.inr (.inl bad))
      unfold decodeTail at h
      split_ifs at h
      · cases h; exact .inl (.inr (.inr (.inr rfl)))
      split at h
      next missing =>
        cases h
        exact .inr ⟨rfl, .inr ⟨l, length, by have := List.getElem?_eq_none_iff.mp missing; omega⟩⟩
      · split_ifs at h
        cases h; exact .inl (.inl rfl)

/-- T4 reads the length word that `Decode` reads. -/
theorem lengthFieldCheck_of_headerLength {h : List Byte} {l : Len12} (ok : headerLength h = .ok l) :
    lengthFieldCheck (wordAt h 9) = some l := by
  unfold headerLength at ok
  unfold wordAt
  split at ok
  · cases ok
  next w word =>
    rw [word, Option.getD_some]
    split at ok
    · cases ok
    next l' length => rw [length, Except.ok.inj ok]

/-- A reply of the length its header declares is never truncated (R196). -/
theorem decodeFrame_ne_truncated {raw : List Byte} {l : Len12} {pos : Nat} (length : headerLength raw = .ok l)
    (whole : 18 + l.toNat ≤ raw.length) : decodeFrame raw ≠ .err .truncatedFrame pos := fun h => by
  rcases decodeFrame_err h with other | ⟨-, short | ⟨l', length', short⟩⟩
  · simp at other
  · omega
  · rw [lengthFieldCheck_of_headerLength length] at length'
    obtain rfl := Option.some.inj length'
    omega

/-- T4 looks at the header region alone. -/
theorem headerLength_append {h : List Byte} (more : List Byte) (region : 13 ≤ h.length) :
    headerLength (h ++ more) = headerLength h := by
  unfold headerLength
  rw [List.getElem?_append_left (by omega), List.getElem?_append_left (by omega), List.getElem?_append_left (by omega),
    List.getElem?_append_left (by omega)]

theorem headerLength_take {h : List Byte} (region : 18 ≤ h.length) : headerLength (h.take 18) = headerLength h := by
  conv_rhs => rw [← List.take_append_drop 18 h]
  rw [headerLength_append _ (by simp; omega)]

/-! ### The cycle of an exchange -/

section
variable {s : State} {x : Exchange} {inn : List Byte} {future : List ChanCycle}

theorem nextCycle_exchangeState : (nextCycle (exchangeState s x inn future).chan).1 = future.headD .quiet := by
  rw [nextCycle_eq]
  rfl

theorem encStarted_refused {e : ErrorName} (valid : (Exchange.refused e).Valid s.ports) (r : EncRegs) :
    (encStarted s.ports.tAddr s.ports.tFn s.ports.tPlen r).phase = .fail ∧
      (encStarted s.ports.tAddr s.ports.tFn s.ports.tPlen r).err = some e := by
  rcases valid with ⟨bad, rfl⟩ | ⟨good, long, rfl⟩
  · rw [encStarted, if_pos bad]
    exact ⟨rfl, rfl⟩
  · rw [encStarted, if_neg (by omega), if_pos (by omega)]
    exact ⟨rfl, rfl⟩

theorem txnDecode_exchangeState {l : Len12} {got : List Byte} {timer : BitVec 32}
    (valid : (Exchange.reading (some l) got timer).Valid s.ports) (whole : 18 + l.toNat ≤ got.length) :
    txnDecode (exchangeState s (.reading (some l) got timer) inn future) =
      aheadState s future (.decoded l got timer inn) := by
  obtain ⟨-, -, atMost, length⟩ := valid
  have := l.isLt
  have exact_length : got.length = 18 + (exchangeState s (.reading (some l) got timer) inn future).txn.n.toNat := by
    change got.length = 18 + l.toNat
    omega
  have stored : Stored (exchangeState s (.reading (some l) got timer) inn future).rxbuf got :=
    stored_storedIn s.rxbuf (show got.length ≤ 4113 by omega)
  cases verdict : decodeFrame got with
  | ok reply pos =>
    obtain ⟨d, decoded, rfl, -⟩ := txnDecode_accepted exact_length stored verdict
    rw [decoded]
    simp only [aheadState, verdict]
    rfl
  | err e pos =>
    have raised : e ≠ .truncatedFrame := by
      rintro rfl
      exact decodeFrame_ne_truncated length whole verdict
    obtain ⟨t, failed, decoded, -⟩ := txnDecode_refused exact_length stored verdict raised
    have failed : (decRun got (decStart s.txnDec)).1 = decFailed e t := failed
    rw [decoded]
    simp only [aheadState, verdict, failed]

/-- One clock cycle of an exchange. -/
theorem txnCycle_exchangeState (valid : x.Valid s.ports) :
    txnCycle (exchangeState s x inn future) =
      aheadState s future.tail
        (x.ahead s.ports (future.headD .quiet) (inn ++ (future.headD .quiet).arrive)) := by
  cases x with
  | refused e =>
    obtain ⟨phase, err⟩ := encStarted_refused valid s.txnEnc
    rw [txnCycle_write rfl rfl, txnArrive_exchangeState]
    exact txnWrite_refused phase err
  | writing k =>
    rw [txnCycle_write rfl rfl, txnArrive_exchangeState, nextCycle_exchangeState]
    exact txnWrite_exchangeState valid
  | sent =>
    rw [txnCycle_sent rfl rfl, txnArrive_exchangeState]
    rfl
  | reading n got timer =>
    have atMost : got.length ≤ wanted n := by
      cases n with
      | none => exact valid.2
      | some l => exact valid.2.2.1
    have limit := wanted_le n
    have count := cnt_reading (s := s) (n := n) (timer := timer) (got := got) (by omega)
    by_cases more : got.length < wanted n
    · have reading := reading_exchange (s := s) (n := n) (timer := timer) more
      have cycle := txnCycle_reading (s := exchangeState s (.reading n got timer) inn future) reading
      rw [show readLimit (exchangeState s (.reading n got timer) inn future).txn = wanted n from readLimit_exchange ..,
        txnArrive_exchangeState, nextCycle_exchangeState, txnRead_exchangeState more] at cycle
      rw [cycle]
      cases n with
      | none => rw [Exchange.ahead, if_pos (show got.length < 18 from more)]
      | some l => rw [Exchange.ahead, if_pos (show got.length < 18 + l.toNat from more)]
    · cases n with
      | none =>
        have read : got.length = 18 := le_antisymm atMost (Nat.le_of_not_lt more)
        have bytes := rxBytes_exchangeState (s := s) (x := .reading none got timer)
          (inn := inn ++ (future.headD .quiet).arrive) (future := future.tail) (show got.length ≤ 4113 by omega)
        rw [txnCycle_length rfl rfl (by change 18 ≤ (exchangeTxn s (.reading none got timer)).cnt.toNat; omega),
          txnArrive_exchangeState, txnLength, Exchange.ahead, if_neg (by omega)]
        rw [show (Exchange.reading none got timer).got.length = Config.headerRegion from read] at bytes
        rw [bytes, show (Exchange.reading none got timer).got = got from rfl]
        cases length : headerLength got <;> rfl
      | some l =>
        have whole : 18 + l.toNat ≤ got.length := Nat.le_of_not_lt more
        rw [txnCycle_decode rfl rfl (by
            change 18 + l.toNat ≤ (exchangeTxn s (.reading (some l) got timer)).cnt.toNat; omega),
          txnArrive_exchangeState, txnDecode_exchangeState valid whole, Exchange.ahead, if_neg (by omega)]

/-! ### What a cycle keeps -/

/-- An exchange that goes on stays valid. -/
theorem valid_ahead {p : InPorts} {c : ChanCycle} {x' : Exchange} {inn' : List Byte} (valid : x.Valid p)
    (next : x.ahead p c inn = .going x' inn') : x'.Valid p := by
  cases x with
  | refused e => cases next
  | writing k =>
    obtain ⟨legal, more⟩ := valid
    simp only [Exchange.ahead] at next
    have k'_le : (if c.txReady = true then k + 1 else k) ≤ frameLength p := by split <;> omega
    generalize (if c.txReady = true then k + 1 else k) = k' at next k'_le
    split_ifs at next with error all
    · cases next; exact legal
    · cases next; exact ⟨legal, lt_of_le_of_ne k'_le all⟩
  | sent =>
    cases next
    exact ⟨valid, Nat.zero_le 18⟩
  | reading n got timer =>
    have taken : got.length ≤ (got ++ inn.take 1).length ∧ (got ++ inn.take 1).length ≤ got.length + 1 := by simp
    cases n with
    | none =>
      obtain ⟨legal, atMost⟩ := valid
      simp only [Exchange.ahead] at next
      split_ifs at next with more
      · unfold readAhead at next
        split_ifs at next
        all_goals
          cases next
          exact ⟨legal, by omega⟩
      · split at next
        · cases next
        next l length =>
          cases next
          exact ⟨legal, by omega, by omega, length⟩
    | some l =>
      obtain ⟨legal, region, atMost, length⟩ := valid
      simp only [Exchange.ahead] at next
      split_ifs at next with more
      unfold readAhead at next
      split_ifs at next
      all_goals
        cases next
        exact ⟨legal, by omega, by omega, by rw [headerLength_append _ (by omega), length]⟩

end

end Sys2Proof.Proofs
end

section
/-! PROOFS. `execute` as a run of cycles: where it ends, and that the end depends on the operands and the channel alone (R190,
R208, R270; logs 8, 9, 10). -/

namespace Sys2Proof.Proofs

open Sys2Proof Sys2Proof.Machine Sys2Proof.Safety Sys2Proof.Laws

/-! ### Standing and going on -/

/-- An exchange with the unread input and the coming cycles of its channel. -/
structure Standing where
  exchange : Exchange
  inn : List Byte
  future : List ChanCycle

namespace Standing

def state (s : State) (a : Standing) : State := exchangeState s a.exchange a.inn a.future

/-- What the next cycle makes of it. -/
def next (p : InPorts) (a : Standing) : Ahead :=
  a.exchange.ahead p (a.future.headD .quiet) (a.inn ++ (a.future.headD .quiet).arrive)

/-- It goes on to `b`. -/
def Goes (p : InPorts) (a b : Standing) : Prop := a.next p = .going b.exchange b.inn ∧ b.future = a.future.tail

/-- It goes on to `b` in some number of cycles. -/
def Reaches (p : InPorts) : Standing → Standing → Prop := Relation.ReflTransGen (Goes p)

/-- The environment has nothing left to do, and the exchange waits for it: in the write, or in a read with nothing to
read and time left (R270). -/
def Waiting (p : InPorts) (a : Standing) : Prop :=
  a.future = [] ∧
    match a.exchange with
    | .writing _ => True
    | .reading n got timer => got.length < wanted n ∧ a.inn = [] ∧ timer < p.tTimeout
    | .refused _ | .sent => False

/-- The exchange ends in the next cycle. -/
def Ending (p : InPorts) (a : Standing) : Prop := ∀ x inn, a.next p ≠ .going x inn

end Standing

/-- The transitions an exchange has still to make, whatever the channel does. -/
def Exchange.rank : Exchange → Nat
  | .writing _ | .sent => 3
  | .reading none .. => 2
  | .reading (some _) .. | .refused _ => 1

/-- Enough cycles for an exchange to end or to wait for the channel (log 10). -/
def Standing.work (a : Standing) : Nat :=
  a.future.length + a.inn.length + (a.future.map fun c => c.arrive.length).sum + a.exchange.rank

/-! ### Runs of cycles -/

theorem txnRun_of_rest (count : Nat) {s : State} (rest : s.txn.busy = false) : txnRun count s = s := by
  cases count with
  | zero => rfl
  | succ count => simp [txnRun, rest]

theorem txnRun_of_held (count : Nat) {s : State} (held : txnCycle s = s) : txnRun count s = s := by
  induction count with
  | zero => rfl
  | succ count ih =>
    rw [txnRun, held, ih]
    exact ite_self s

theorem txnRun_succ_of_busy (count : Nat) {s : State} (busy : s.txn.busy = true) :
    txnRun (count + 1) s = txnRun count (txnCycle s) := by
  rw [txnRun, if_pos busy]

section
variable {p : InPorts} {a b : Standing} {s : State}

theorem busy_state (a : Standing) : (a.state s).txn.busy = true := by
  obtain ⟨x, inn, future⟩ := a
  cases x <;> rfl

theorem txnCycle_state (valid : a.exchange.Valid s.ports) :
    txnCycle (a.state s) = aheadState s a.future.tail (a.next s.ports) := txnCycle_exchangeState valid

theorem txnCycle_of_goes (valid : a.exchange.Valid s.ports) (goes : a.Goes s.ports b) :
    txnCycle (a.state s) = b.state s := by
  obtain ⟨next, future⟩ := goes
  rw [txnCycle_state valid, next, ← future]
  rfl

theorem busy_aheadState_of_ending (ending : a.Ending p) (future : List ChanCycle) :
    (aheadState s future (a.next p)).txn.busy = false := by
  unfold Standing.Ending at ending
  generalize a.next p = y at ending
  cases y with
  | going x inn => exact absurd rfl (ending x inn)
  | failed e x inn => rfl
  | writeFailed k inn => rfl
  | readFailed x => rfl
  | decoded l got timer inn =>
    rw [aheadState]
    split <;> rfl

theorem valid_of_goes (valid : a.exchange.Valid p) (goes : a.Goes p b) : b.exchange.Valid p :=
  valid_ahead valid goes.1

theorem valid_of_reaches (valid : a.exchange.Valid p) (reaches : a.Reaches p b) : b.exchange.Valid p := by
  induction reaches with
  | refl => exact valid
  | tail _ goes ih => exact valid_of_goes ih goes

/-- An exchange that waits stands still (R270). -/
theorem goes_self_of_waiting (valid : a.exchange.Valid p) (waiting : a.Waiting p) : a.Goes p a := by
  obtain ⟨x, inn, future⟩ := a
  obtain ⟨rfl, waits⟩ := waiting
  refine ⟨?_, rfl⟩
  cases x with
  | refused e => exact waits.elim
  | sent => exact waits.elim
  | writing k =>
    have more : k ≠ frameLength p := Nat.ne_of_lt valid.2
    simp [Standing.next, Exchange.ahead, ChanCycle.quiet, more]
  | reading n got timer =>
    obtain ⟨more, rfl, early⟩ := waits
    have inTime : ¬p.tTimeout ≤ timer := BitVec.not_le.mpr early
    cases n with
    | none =>
      have more : got.length < 18 := more
      simp [Standing.next, Exchange.ahead, readAhead, ChanCycle.quiet, more, inTime]
    | some l =>
      have more : got.length < 18 + l.toNat := more
      simp [Standing.next, Exchange.ahead, readAhead, ChanCycle.quiet, more, inTime]

/-! ### Cycles are used up -/

/-- What a cycle of a read leaves unread, if it goes on: a byte less, or nothing where nothing was there in time. -/
theorem readAhead_going {c : ChanCycle} {n : Option Len12} {got : List Byte} {timer : BitVec 32} {inn inn' : List Byte}
    {x' : Exchange} (more : got.length < wanted n) (going : readAhead p c n got timer inn = .going x' inn') :
    inn' = inn.drop 1 ∧ x'.rank = (Exchange.reading n got timer).rank ∧ (inn = [] → timer < p.tTimeout) := by
  unfold readAhead at going
  split_ifs at going with error late
  all_goals
    cases going
    refine ⟨rfl, by cases n <;> rfl, ?_⟩
    rintro rfl
    by_contra reached
    exact late ⟨BitVec.not_lt.mp reached, by simpa using more⟩

/-- A cycle neither adds a transition nor input of its own. -/
theorem ahead_going_le {x x' : Exchange} {c : ChanCycle} {inn inn' : List Byte} (going : x.ahead p c inn = .going x' inn') :
    x'.rank ≤ x.rank ∧ inn'.length ≤ inn.length := by
  cases x with
  | refused e => cases going
  | writing k =>
    simp only [Exchange.ahead] at going
    generalize (if c.txReady = true then k + 1 else k) = k' at going
    split_ifs at going <;> cases going <;> exact ⟨le_rfl, le_rfl⟩
  | sent =>
    cases going
    exact ⟨by decide, le_rfl⟩
  | reading n got timer =>
    cases n with
    | none =>
      simp only [Exchange.ahead] at going
      split_ifs at going with more
      · obtain ⟨rfl, rank, -⟩ := readAhead_going (n := none) more going
        exact ⟨rank.le, by simp⟩
      · split at going <;> cases going
        exact ⟨Nat.le_succ 1, le_rfl⟩
    | some l =>
      simp only [Exchange.ahead] at going
      split_ifs at going with more
      obtain ⟨rfl, rank, -⟩ := readAhead_going (n := some l) more going
      exact ⟨rank.le, by simp⟩

/-- In silence an exchange that does not wait makes a transition or reads a byte. -/
theorem ahead_quiet_lt {x x' : Exchange} {inn inn' : List Byte} (notWaiting : ¬(Standing.mk x inn []).Waiting p)
    (going : x.ahead p .quiet inn = .going x' inn') : inn'.length + x'.rank < inn.length + x.rank := by
  cases x with
  | refused e => cases going
  | writing k => exact absurd ⟨rfl, trivial⟩ notWaiting
  | sent =>
    cases going
    exact Nat.add_lt_add_left (by decide) _
  | reading n got timer =>
    have reads (more : got.length < wanted n) (step : readAhead p .quiet n got timer inn = .going x' inn') :
        inn'.length + x'.rank < inn.length + (Exchange.reading n got timer).rank := by
      obtain ⟨rfl, rank, inTime⟩ := readAhead_going more step
      have some_input : inn ≠ [] := fun nothing => notWaiting ⟨rfl, more, nothing, inTime nothing⟩
      have := List.length_pos_of_ne_nil some_input
      rw [rank, List.length_drop]
      omega
    cases n with
    | none =>
      simp only [Exchange.ahead] at going
      split_ifs at going with more
      · exact reads more going
      · split at going <;> cases going
        exact Nat.add_lt_add_left (Nat.lt_succ_self 1) _
    | some l =>
      simp only [Exchange.ahead] at going
      split_ifs at going with more
      exact reads more going

theorem work_lt_of_goes (notWaiting : ¬a.Waiting p) (goes : a.Goes p b) : b.work < a.work := by
  obtain ⟨x, inn, future⟩ := a
  obtain ⟨x', inn', future'⟩ := b
  obtain ⟨going, rest⟩ := goes
  dsimp only at rest
  subst rest
  cases future with
  | nil =>
    have silent : x.ahead p .quiet inn = .going x' inn' := by
      have going : x.ahead p .quiet (inn ++ []) = .going x' inn' := going
      rwa [List.append_nil] at going
    have fewer := ahead_quiet_lt notWaiting silent
    simp only [Standing.work, List.tail_nil, List.length_nil, List.map_nil, List.sum_nil]
    omega
  | cons c cs =>
    obtain ⟨rank, input⟩ := ahead_going_le going
    simp only [Standing.work, List.tail_cons, List.length_cons, List.map_cons, List.sum_cons, List.headD_cons,
      List.length_append] at input rank ⊢
    omega

theorem work_pos (a : Standing) : 0 < a.work := by
  have : 0 < a.exchange.rank := by
    cases a.exchange with
    | reading n got timer => cases n <;> exact Nat.succ_pos _
    | _ => exact Nat.succ_pos _
  rw [Standing.work]
  omega

/-! ### Where a run ends -/

/-- A run long enough gets to one standing, whatever else the states hold: where the exchange waits, or ends in the next
cycle. -/
theorem exists_reaches (a : Standing) (valid : a.exchange.Valid p) :
    ∃ b, a.Reaches p b ∧
      ((b.Waiting p ∧ ∀ s count, s.ports = p → a.work ≤ count → txnRun count (a.state s) = b.state s) ∨
       (b.Ending p ∧ ∀ s count, s.ports = p → a.work ≤ count →
          txnRun count (a.state s) = aheadState s b.future.tail (b.next p))) := by
  induction hw : a.work using Nat.strong_induction_on generalizing a with
  | _ w ih =>
    subst hw
    by_cases waiting : a.Waiting p
    · refine ⟨a, .refl, .inl ⟨waiting, fun s count ports _ => ?_⟩⟩
      subst ports
      exact txnRun_of_held count (txnCycle_of_goes valid (goes_self_of_waiting valid waiting))
    by_cases ending : a.Ending p
    · refine ⟨a, .refl, .inr ⟨ending, fun s count ports enough => ?_⟩⟩
      subst ports
      obtain ⟨count, rfl⟩ := Nat.exists_eq_add_one.mpr (lt_of_lt_of_le (work_pos a) enough)
      rw [txnRun_succ_of_busy count (busy_state a), txnCycle_state valid,
        txnRun_of_rest count (busy_aheadState_of_ending ending _)]
    obtain ⟨x, inn, going⟩ : ∃ x inn, a.next p = .going x inn := by
      simpa only [Standing.Ending, not_forall, not_not] using ending
    let c : Standing := ⟨x, inn, a.future.tail⟩
    have goes : a.Goes p c := ⟨going, rfl⟩
    have fewer := work_lt_of_goes waiting goes
    obtain ⟨b, reaches, outcome⟩ := ih c.work fewer c (valid_of_goes valid goes) rfl
    have step (s : State) (count : Nat) (ports : s.ports = p) (enough : a.work ≤ count) :
        ∃ left, c.work ≤ left ∧ txnRun count (a.state s) = txnRun left (c.state s) := by
      subst ports
      obtain ⟨left, rfl⟩ := Nat.exists_eq_add_one.mpr (lt_of_lt_of_le (work_pos a) enough)
      exact ⟨left, by omega, by rw [txnRun_succ_of_busy left (busy_state a), txnCycle_of_goes valid goes]⟩
    refine ⟨b, .head goes reaches, outcome.imp (fun ⟨waits, runs⟩ => ⟨waits, fun s count ports enough => ?_⟩)
      (fun ⟨ends, runs⟩ => ⟨ends, fun s count ports enough => ?_⟩)⟩
    all_goals
      obtain ⟨left, still, same⟩ := step s count ports enough
      rw [same]
      exact runs s left ports still

/-! ### `execute` -/

/-- Where `start` puts an exchange (R199, R207). -/
def startExchange (p : InPorts) : Exchange :=
  if 15 < p.tAddr.toNat then .refused .invalidAddress
  else if 2047 < p.tPlen.toNat then .refused .payloadTooLarge
  else .writing 0

theorem valid_startExchange (p : InPorts) : (startExchange p).Valid p := by
  unfold startExchange
  split_ifs with address length
  · exact .inl ⟨address, rfl⟩
  · exact .inr ⟨by omega, length, rfl⟩
  · exact ⟨⟨by omega, by omega⟩, by rw [frameLength]; omega⟩

/-- The first cycle of an exchange is the start's, and its bytes are flushed (R191). -/
def startStanding (p : InPorts) (future : List ChanCycle) : Standing := ⟨startExchange p, [], future.tail⟩

theorem txnStart_eq (s : State) : txnStart (txnArrive s) = (startStanding s.ports s.chan.future).state s := by
  have out : (exchangeFrame s).take ((startExchange s.ports).written s.ports) = [] := by
    unfold startExchange
    split_ifs <;> exact List.take_zero
  have txn : exchangeTxn s (startExchange s.ports) = latched s := by
    unfold startExchange
    split_ifs <;> rfl
  have enc : exchangeEnc s (startExchange s.ports) = encStart s.ports.tAddr s.ports.tFn s.ports.tPlen s.txnEnc := by
    unfold startExchange
    split_ifs with address length
    · exact (encStart_eq ..).symm
    · exact (encStart_eq ..).symm
    · exact (encStart_legal s.ports.tFn s.txnEnc (by omega) (by omega) (length_executePayload s)).symm
  have rxbuf : storedIn s.rxbuf (startExchange s.ports).got = s.rxbuf := by
    unfold startExchange
    split_ifs <;> rfl
  rw [Standing.state, exchangeState, startStanding, out, txn, enc, rxbuf, List.append_nil, txnArrive, nextCycle_eq]
  rfl

theorem exec_execute (rest : s.txn.busy = false) :
    exec .execute s = .next (txnRun (channelWork s.chan) ((startStanding s.ports s.chan.future).state s)) := by
  rw [← txnStart_eq]
  exact if_neg (by rw [rest]; decide)

/-- The model runs an exchange long enough (log 10). -/
theorem work_startStanding_le (p : InPorts) (c : Channel) : (startStanding p c.future).work ≤ channelWork c := by
  have rank : (startExchange p).rank ≤ 3 := by
    unfold startExchange
    split_ifs <;> decide
  have tail_le : c.future.tail.length ≤ c.future.length := by simp
  have arrived_le : (c.future.tail.map fun e => e.arrive.length).sum ≤ (c.future.map fun e => e.arrive.length).sum := by
    cases c.future with
    | nil => exact le_rfl
    | cons e es => simp
  rw [Standing.work, channelWork]
  change c.future.tail.length + 0 + (c.future.tail.map fun e => e.arrive.length).sum + (startExchange p).rank ≤ _
  omega

/-- Where an `execute` gets to: the same standing from every state with these operands and this channel. -/
theorem exists_execute (p : InPorts) (future : List ChanCycle) :
    ∃ b, (startStanding p future).Reaches p b ∧
      ((b.Waiting p ∧ ∀ s : State, s.txn.busy = false → s.ports = p → s.chan.future = future →
          exec .execute s = .next (b.state s)) ∨
       (b.Ending p ∧ ∀ s : State, s.txn.busy = false → s.ports = p → s.chan.future = future →
          exec .execute s = .next (aheadState s b.future.tail (b.next p)))) := by
  obtain ⟨b, reaches, outcome⟩ := exists_reaches (startStanding p future) (valid_startExchange p)
  refine ⟨b, reaches, outcome.imp (fun ⟨waits, runs⟩ => ⟨waits, fun s rest ports coming => ?_⟩)
    (fun ⟨ends, runs⟩ => ⟨ends, fun s rest ports coming => ?_⟩)⟩
  all_goals
    subst ports coming
    rw [exec_execute rest, runs s _ rfl (work_startStanding_le s.ports s.chan)]

/-- Settles O45: the run is long enough for every cycle that does something, so what is still busy waits. -/
theorem executeWaitsOnlyForTheChannel : Obligations.ExecuteWaitsOnlyForTheChannel := by
  unfold Obligations.ExecuteWaitsOnlyForTheChannel
  intro s t rest run busy
  obtain ⟨b, reaches, ⟨waiting, runs⟩ | ⟨ending, runs⟩⟩ := exists_execute s.ports s.chan.future
  case inr =>
    rw [runs s rest rfl rfl] at run
    cases run
    rw [busy_aheadState_of_ending ending] at busy
    cases busy
  rw [runs s rest rfl rfl] at run
  cases run
  have valid := valid_of_reaches (valid_startExchange s.ports) reaches
  have held := txnCycle_of_goes valid (goes_self_of_waiting valid waiting)
  refine ⟨waiting.1, rfl, ?_, by rw [exec_own_stateWord, held]⟩
  obtain ⟨x, inn, future⟩ := b
  obtain ⟨-, waits⟩ := waiting
  cases x with
  | refused e => exact waits.elim
  | sent => exact waits.elim
  | writing k => exact .inl rfl
  | reading n got timer =>
    obtain ⟨more, nothing, early⟩ := waits
    exact .inr ⟨nothing, reading_exchange more, early⟩

/-! ### What is on the wire and what the caller sees -/

/-- How many bytes of the frame are written after a cycle. -/
def Ahead.written (p : InPorts) : Ahead → Nat
  | .going x _ | .failed _ x _ | .readFailed x => x.written p
  | .writeFailed k _ => k
  | .decoded .. => frameLength p

theorem out_aheadState (future : List ChanCycle) (y : Ahead) :
    (aheadState s future y).chan.out = s.chan.out ++ (exchangeFrame s).take (y.written s.ports) := by
  cases y with
  | decoded l got timer inn =>
    rw [aheadState]
    split <;> rfl
  | _ => rfl

theorem future_aheadState (future : List ChanCycle) (y : Ahead) : (aheadState s future y).chan.future = future := by
  cases y with
  | decoded l got timer inn =>
    rw [aheadState]
    split <;> rfl
  | _ => rfl

/-- What the caller sees is the flags, the error and the result, and the reply's fields where there is one. -/
theorem callerView_congr {t t' : State} (busy : t.txn.busy = t'.txn.busy) (state : t.txn.state = t'.txn.state)
    (err : t.txn.err = t'.txn.err) (result : t.result = t'.result)
    (reply : t.txn.state = .complete → t.txn.status = t'.txn.status ∧ t.txn.rplen = t'.txn.rplen ∧
      t.txn.ver = t'.txn.ver ∧ t.txn.radr = t'.txn.radr ∧ t.txn.dev = t'.txn.dev) : callerView t = callerView t' := by
  simp only [callerView, txnOutputs, busy, ← state, err, result]
  by_cases complete : t.txn.state = .complete
  · obtain ⟨status, rplen, ver, radr, dev⟩ := reply complete
    simp only [status, rplen, ver, radr, dev]
  · have low : (t.txn.state == TState.complete) = false := by simpa using complete
    simp only [low, Bool.false_eq_true, if_false]

theorem callerView_exchangeState {s s' : State} (x : Exchange) {inn : List Byte} {future : List ChanCycle} :
    callerView (exchangeState s x inn future) = callerView (exchangeState s' x inn future) := by
  refine callerView_congr (by cases x <;> rfl) (by cases x <;> rfl) (by cases x <;> rfl) rfl fun complete => ?_
  cases x with
  | reading n got timer => cases n <;> cases complete
  | _ => cases complete

theorem callerView_txnFail (e : ErrorName) {t t' : State} : callerView (txnFail e t) = callerView (txnFail e t') :=
  callerView_congr rfl rfl rfl rfl nofun

theorem callerView_aheadState {s s' : State} (future : List ChanCycle) (y : Ahead) :
    callerView (aheadState s future y) = callerView (aheadState s' future y) := by
  cases y with
  | going x inn => exact callerView_exchangeState x
  | failed e x inn => exact callerView_txnFail e
  | writeFailed k inn => exact callerView_txnFail _
  | readFailed x => exact callerView_txnFail _
  | decoded l got timer inn =>
    simp only [aheadState]
    split
    · exact callerView_congr rfl rfl rfl rfl fun _ => ⟨rfl, rfl, rfl, rfl, rfl⟩
    · exact callerView_txnFail _

/-- Settles O44: both runs get to one standing, which what an earlier exchange left plays no part in. -/
theorem executeIsStateless : Obligations.ExecuteIsStateless := by
  unfold Obligations.ExecuteIsStateless
  intro s s' t t' rest rest' ports payload coming run run'
  have frame : exchangeFrame s = exchangeFrame s' := by rw [exchangeFrame, exchangeFrame, ports, payload]
  obtain ⟨b, -, ⟨-, runs⟩ | ⟨-, runs⟩⟩ := exists_execute s.ports s.chan.future
  · rw [runs s rest rfl rfl] at run
    rw [runs s' rest' ports.symm coming.symm] at run'
    cases run
    cases run'
    exact ⟨callerView_exchangeState b.exchange, rfl, (exchangeFrame s).take (b.exchange.written s.ports), rfl,
      by rw [frame, ports]; rfl⟩
  · rw [runs s rest rfl rfl] at run
    rw [runs s' rest' ports.symm coming.symm] at run'
    cases run
    cases run'
    exact ⟨callerView_aheadState _ _, by rw [future_aheadState, future_aheadState],
      (exchangeFrame s).take ((b.next s.ports).written s.ports), out_aheadState _ _,
      by rw [frame, ports]; exact out_aheadState _ _⟩

end

end Sys2Proof.Proofs
end

section
/-! PROOFS. What an exchange has had of its channel: the bytes that came, the bytes taken, the ticks (R44, R48, R192, R206), and
the functional level it agrees with (R190). -/

namespace Sys2Proof.Proofs

open Sys2Proof Sys2Proof.Machine Sys2Proof.Safety Sys2Proof.Laws

/-! ### What the cycles so far have brought -/

theorem arrivals_append (as bs : List ChanCycle) : arrivals (as ++ bs) = arrivals as ++ arrivals bs := by
  simp [arrivals]

/-- In which cycles an exchange has got where it stands: what the transport took and, in a read, how often the clock ticked. -/
def Exchange.Earned (p : InPorts) (cycles : List ChanCycle) : Exchange → Prop
  | .refused _ => True
  | .writing k => k ≤ (cycles.filter ChanCycle.txReady).length
  | .sent => frameLength p ≤ (cycles.filter ChanCycle.txReady).length
  | .reading n _ timer => ∃ before during,
      cycles = before ++ during ∧ frameLength p ≤ (before.filter ChanCycle.txReady).length ∧
      timer.toNat ≤ (during.filter ChanCycle.tick).length ∧ (n ≠ none → 18 ≤ (arrivals (before.drop 1)).length)

/-- The exchange has come this far in the cycles `cycles` of `future`, the first of them the start's: every byte that came
since is stored or unread. -/
structure Standing.Tracks (p : InPorts) (future cycles : List ChanCycle) (a : Standing) : Prop where
  whole : future = cycles ++ a.future
  started : cycles = [] → a.future = []
  input : a.exchange.got ++ a.inn = arrivals (cycles.drop 1)
  earned : a.exchange.Earned p cycles

section
variable {p : InPorts} {future cycles : List ChanCycle} {a b : Standing}

theorem tracks_start (p : InPorts) (future : List ChanCycle) :
    (startStanding p future).Tracks p future (future.take 1) := by
  have got : (startExchange p).got = [] := by
    unfold startExchange
    split_ifs <;> rfl
  refine ⟨?_, ?_, ?_, ?_⟩
  · cases future <;> rfl
  · cases future with
    | nil => exact fun _ => rfl
    | cons c cs => exact fun h => by cases h
  · change (startExchange p).got ++ [] = _
    rw [got]
    cases future <;> rfl
  · change (startExchange p).Earned p _
    unfold startExchange
    split_ifs
    · exact trivial
    · exact trivial
    · exact Nat.zero_le _

/-- The cycles one cycle on; none where the environment has nothing left to do. -/
theorem tracked_whole (h : a.Tracks p future cycles) : future = (cycles ++ a.future.take 1) ++ a.future.tail := by
  rw [List.append_assoc, ← List.drop_one, List.take_append_drop]
  exact h.whole

theorem arrivals_next (h : a.Tracks p future cycles) :
    arrivals ((cycles ++ a.future.take 1).drop 1) =
      arrivals (cycles.drop 1) ++ (a.future.headD .quiet).arrive := by
  cases cycles with
  | nil => rw [h.started rfl]; rfl
  | cons c cs =>
    rw [List.cons_append, List.drop_one, List.tail_cons, List.drop_one, List.tail_cons, arrivals_append]
    refine congrArg (arrivals cs ++ ·) ?_
    cases a.future with
    | nil => rfl
    | cons c' cs' => simp [arrivals]

/-- The bytes there in the next cycle, stored or not. -/
theorem input_next (h : a.Tracks p future cycles) :
    a.exchange.got ++ (a.inn ++ (a.future.headD .quiet).arrive) = arrivals ((cycles ++ a.future.take 1).drop 1) := by
  rw [arrivals_next h, ← h.input, List.append_assoc]

theorem count_next (f : ChanCycle → Bool) (quiet : f .quiet = false) (cycles more : List ChanCycle) :
    ((cycles ++ more.take 1).filter f).length =
      (cycles.filter f).length + if f (more.headD .quiet) = true then 1 else 0 := by
  rw [List.filter_append, List.length_append]
  cases more with
  | nil => simp [quiet]
  | cons c cs => cases h : f c <;> simp [h]

/-- A cycle of a read goes on with the read, its timer up by at most the tick. -/
theorem readAhead_going_eq {c : ChanCycle} {n : Option Len12} {got : List Byte} {timer : BitVec 32}
    {inn inn' : List Byte} {x' : Exchange} (going : readAhead p c n got timer inn = .going x' inn') :
    ∃ timer', x' = .reading n (got ++ inn.take 1) timer' ∧ inn' = inn.drop 1 ∧
      timer'.toNat ≤ timer.toNat + if c.tick = true then 1 else 0 := by
  unfold readAhead at going
  split_ifs at going
  all_goals
    cases going
    refine ⟨_, rfl, rfl, ?_⟩
  · next counted =>
    obtain ⟨-, tick, below⟩ := counted
    rw [if_pos tick]
    exact (BitVec.toNat_add_of_lt (by change timer.toNat + 1 < 2 ^ 32; omega)).le
  · exact Nat.le_add_right _ _

theorem earned_reading {n : Option Len12} {got got' : List Byte} {timer timer' : BitVec 32}
    (earned : (Exchange.reading n got timer).Earned p cycles) {more : List ChanCycle}
    (counted : timer'.toNat ≤ timer.toNat + if (more.headD .quiet).tick = true then 1 else 0) :
    (Exchange.reading n got' timer').Earned p (cycles ++ more.take 1) := by
  obtain ⟨before, during, rfl, sent, ticks, header⟩ := earned
  refine ⟨before, during ++ more.take 1, List.append_assoc .., sent, ?_, header⟩
  rw [count_next ChanCycle.tick rfl]
  omega

theorem tracks_of_goes (valid : a.exchange.Valid p) (h : a.Tracks p future cycles) (goes : a.Goes p b) :
    b.Tracks p future (cycles ++ a.future.take 1) := by
  obtain ⟨next, rest⟩ := goes
  have input := input_next h
  have started : cycles ++ a.future.take 1 = [] → b.future = [] := fun none => by
    rw [rest, h.started (List.append_eq_nil_iff.mp none).1]
    rfl
  refine ⟨rest ▸ tracked_whole h, started, ?stored, ?history⟩
  all_goals
    have earned := h.earned
    unfold Standing.next at next
    obtain ⟨x, inn, future'⟩ := a
    obtain ⟨x', inn', future''⟩ := b
    dsimp only at next input earned valid ⊢
  case stored =>
    rw [← input]
    cases x with
    | refused e => cases next
    | writing k =>
      simp only [Exchange.ahead] at next
      split_ifs at next <;> cases next <;> rfl
    | sent => cases next; rfl
    | reading n got timer =>
      have read (step : readAhead p (future'.headD .quiet) n got timer (inn ++ (future'.headD .quiet).arrive) =
          .going x' inn') : x'.got ++ inn' = got ++ (inn ++ (future'.headD .quiet).arrive) := by
        obtain ⟨timer', rfl, rfl, -⟩ := readAhead_going_eq step
        rw [Exchange.got, List.append_assoc, List.take_append_drop]
      cases n with
      | none =>
        simp only [Exchange.ahead] at next
        split_ifs at next
        · exact read next
        · split at next <;> cases next
          rfl
      | some l =>
        simp only [Exchange.ahead] at next
        split_ifs at next
        exact read next
  case history =>
    cases x with
    | refused e => cases next
    | writing k =>
      have count := count_next ChanCycle.txReady rfl cycles future'
      have earned : k ≤ (cycles.filter ChanCycle.txReady).length := earned
      have taken : (if (future'.headD .quiet).txReady = true then k + 1 else k) ≤
          ((cycles ++ future'.take 1).filter ChanCycle.txReady).length := by
        rw [count]
        split <;> omega
      simp only [Exchange.ahead] at next
      generalize (if (future'.headD .quiet).txReady = true then k + 1 else k) = k' at next taken
      split_ifs at next with error all
      · cases next
        exact all.symm.trans_le taken
      · cases next
        exact taken
    | sent =>
      cases next
      refine ⟨cycles ++ future'.take 1, [], (List.append_nil _).symm, ?_, Nat.zero_le _, fun h => absurd rfl h⟩
      rw [count_next ChanCycle.txReady rfl]
      exact Nat.le_add_right_of_le earned
    | reading n got timer =>
      have read (step : readAhead p (future'.headD .quiet) n got timer (inn ++ (future'.headD .quiet).arrive) =
          .going x' inn') : x'.Earned p (cycles ++ future'.take 1) := by
        obtain ⟨timer', rfl, -, counted⟩ := readAhead_going_eq step
        exact earned_reading earned counted
      cases n with
      | none =>
        simp only [Exchange.ahead] at next
        split_ifs at next with more
        · exact read next
        · split at next
          · cases next
          · cases next
            obtain ⟨before, during, rfl, sent, -, -⟩ := earned
            refine ⟨before ++ during ++ future'.take 1, [], (List.append_nil _).symm, ?_, Nat.zero_le _, fun _ => ?_⟩
            · rw [List.append_assoc, List.filter_append, List.length_append]
              exact Nat.le_add_right_of_le sent
            · rw [← input, List.length_append]
              exact Nat.le_add_right_of_le (Nat.le_of_not_lt more)
      | some l =>
        simp only [Exchange.ahead] at next
        split_ifs at next
        exact read next

theorem exists_tracks_of_reaches (reaches : (startStanding p future).Reaches p b) :
    ∃ cycles, b.Tracks p future cycles ∧ b.exchange.Valid p := by
  induction reaches with
  | refl => exact ⟨_, tracks_start p future, valid_startExchange p⟩
  | tail reaches goes ih =>
    obtain ⟨cycles, tracks, valid⟩ := ih
    exact ⟨_, tracks_of_goes valid tracks goes, valid_of_goes valid goes⟩

/-! ### How an exchange ends -/

/-- The ends of an exchange in a cycle `c`, with `inn` there: its operands refused, a channel error in the write or in a
read, a read timed out, a bad length field, or a whole reply (R190, R199). -/
inductive EndsBy (p : InPorts) (c : ChanCycle) (inn : List Byte) : Exchange → Ahead → Prop
  | refused (e : ErrorName) : EndsBy p c inn (.refused e) (.failed e (.refused e) inn)
  | writeError {k : Nat} (error : c.txErr = true) :
    EndsBy p c inn (.writing k) (.writeFailed (if c.txReady then k + 1 else k) inn)
  | readError {n : Option Len12} {got : List Byte} {timer : BitVec 32} (error : c.rxErr = true) :
    EndsBy p c inn (.reading n got timer) (.readFailed (.reading n got timer))
  | timeout {n : Option Len12} {got : List Byte} {timer : BitVec 32} (late : p.tTimeout ≤ timer)
    (few : got.length + inn.length < wanted n) :
    EndsBy p c inn (.reading n got timer) (.failed .responseTimeout (.reading n (got ++ inn) timer) [])
  | badLength {got : List Byte} {timer : BitVec 32} {e : ErrorName} (read : 18 ≤ got.length)
    (length : headerLength got = .error e) :
    EndsBy p c inn (.reading none got timer) (.failed e (.reading none got timer) inn)
  | reply {l : Len12} {got : List Byte} {timer : BitVec 32} (read : 18 + l.toNat ≤ got.length) :
    EndsBy p c inn (.reading (some l) got timer) (.decoded l got timer inn)

theorem endsBy_readAhead {c : ChanCycle} {n : Option Len12} {got : List Byte} {timer : BitVec 32} {inn : List Byte}
    (ending : ∀ x' inn', readAhead p c n got timer inn ≠ .going x' inn') :
    EndsBy p c inn (.reading n got timer) (readAhead p c n got timer inn) := by
  unfold readAhead at ending ⊢
  split_ifs at ending ⊢ with error late
  · exact .readError error
  · exact .timeout late.1 late.2
  all_goals exact absurd rfl (ending _ _)

theorem endsBy_ahead {x : Exchange} {c : ChanCycle} {inn : List Byte}
    (ending : ∀ x' inn', x.ahead p c inn ≠ .going x' inn') : EndsBy p c inn x (x.ahead p c inn) := by
  cases x with
  | refused e => exact .refused e
  | writing k =>
    by_cases error : c.txErr = true
    · have failed : (Exchange.writing k).ahead p c inn = .writeFailed (if c.txReady then k + 1 else k) inn := by
        simp only [Exchange.ahead, error, if_true]
      rw [failed]
      exact .writeError error
    · by_cases all : (if c.txReady = true then k + 1 else k) = frameLength p
      · exact absurd (by simp only [Exchange.ahead, if_neg error, if_pos all]) (ending .sent inn)
      · exact absurd (by simp only [Exchange.ahead, if_neg error, if_neg all]) (ending (.writing (if c.txReady = true then k + 1 else k)) inn)
  | sent => exact absurd rfl (ending _ _)
  | reading n got timer =>
    cases n with
    | none =>
      simp only [Exchange.ahead] at ending ⊢
      split_ifs at ending ⊢ with more
      · exact endsBy_readAhead ending
      · cases length : headerLength got with
        | error e => exact .badLength (Nat.le_of_not_lt more) length
        | ok l => exact absurd (by rw [length]) (ending (.reading (some l) got 0) inn)
    | some l =>
      simp only [Exchange.ahead] at ending ⊢
      split_ifs at ending ⊢ with more
      · exact endsBy_readAhead ending
      · exact .reply (Nat.le_of_not_lt more)

theorem endsBy_next (ending : b.Ending p) :
    EndsBy p (b.future.headD .quiet) (b.inn ++ (b.future.headD .quiet).arrive) b.exchange (b.next p) :=
  endsBy_ahead ending

/-- A cycle in which the channel reports an error is one of the environment's (log 8). -/
theorem lastCycle_of_noisy (h : b.Tracks p future cycles) (f : ChanCycle → Bool) (quiet : f .quiet = false)
    (noisy : f (b.future.headD .quiet) = true) : LastCycle future b.future.tail (b.future.headD .quiet) := by
  refine ⟨cycles, ?_⟩
  have whole := h.whole
  cases coming : b.future with
  | nil => simp [coming, quiet] at noisy
  | cons c cs => rw [coming] at whole; exact whole

/-- What has been read is what came first since the flush. -/
theorem got_prefix (h : b.Tracks p future cycles) : b.exchange.got <+: arrivals (future.drop 1) := by
  refine (List.prefix_append b.exchange.got b.inn).trans ?_
  rw [h.input]
  have whole := h.whole
  cases cycles with
  | nil => exact List.nil_prefix
  | cons c cs =>
    rw [whole, List.cons_append, List.drop_one, List.tail_cons, List.drop_one, List.tail_cons, arrivals_append]
    exact List.prefix_append _ _

/-- A read that times out has missed its deadline since it started (R48, R206). -/
theorem deadlineMissed_of_tracks {n : Option Len12} {got : List Byte} {timer : BitVec 32} (h : b.Tracks p future cycles)
    (exchange : b.exchange = .reading n got timer) (late : p.tTimeout ≤ timer)
    (few : got.length + (b.inn ++ (b.future.headD .quiet).arrive).length < wanted n) :
    ∃ before, frameLength p ≤ (before.filter ChanCycle.txReady).length ∧
      (n ≠ none → 18 ≤ (arrivals (before.drop 1)).length) ∧
      DeadlineMissed future b.future.tail before p.tTimeout.toNat (wanted n) := by
  have earned := h.earned
  have input := input_next h
  have whole := tracked_whole h
  rw [exchange] at earned input
  obtain ⟨before, during, rfl, sent, ticks, header⟩ := earned
  refine ⟨before, sent, header, during ++ b.future.take 1, ?_, ?_, ?_⟩
  · rw [← List.append_assoc]
    exact whole
  · rw [List.filter_append, List.length_append]
    exact Nat.le_add_right_of_le (le_trans late ticks)
  · rw [← List.append_assoc, ← input, List.length_append]
    exact few

end

/-! ### The functional level's answers (R190) -/

section
variable {s t : State}

theorem encodeFrame_refused {e : ErrorName} (valid : (Exchange.refused e).Valid s.ports) :
    encodeFrame s.ports.tAddr s.ports.tFn (executePayload s) = .err e := by
  rcases valid with ⟨bad, rfl⟩ | ⟨good, long, rfl⟩
  · exact encodeFrame_bad_address _ _ bad
  · exact encodeFrame_long_payload _ good (by rw [length_executePayload]; exact long)

theorem take_exchangeFrame : (exchangeFrame s).take (frameLength s.ports) = exchangeFrame s := by
  rw [← length_exchangeFrame, List.take_length]

/-- Answers of the channel that the functional level turns into this end, each of them allowed (R8, R48, R55). -/
def Answered (s t : State) : Prop :=
  ∃ (w : WriteAnswer) (header second : ReadAnswer),
    t.result = some (executeFunctional s.ports.tAddr s.ports.tFn (executePayload s) w header second) ∧
    (∀ k, w = .count k → ∀ frame, encodeFrame s.ports.tAddr s.ports.tFn (executePayload s) = .ok frame →
      k = frame.length ∧ t.chan.out = s.chan.out ++ frame) ∧
    (∀ b, header = .bytes b → b.length = 18) ∧
    (∀ b, second = .bytes b → b.length = t.txn.n.toNat) ∧
    answerBytes header ++ answerBytes second <+: arrivals (s.chan.future.drop 1) ∧
    (t.result = some (.err .ioError) →
      ∃ c, LastCycle s.chan.future t.chan.future c ∧ (w = .ioError → c.txErr = true) ∧ (w ≠ .ioError → c.rxErr = true)) ∧
    (t.result = some (.err .responseTimeout) →
      t.chan.inn = [] ∧
      ∃ before,
        18 + 2 * s.ports.tPlen.toNat ≤ (before.filter ChanCycle.txReady).length ∧
        (header = .timeout → DeadlineMissed s.chan.future t.chan.future before s.ports.tTimeout.toNat 18) ∧
        (header ≠ .timeout → second = .timeout ∧ 18 ≤ (arrivals (before.drop 1)).length ∧
          DeadlineMissed s.chan.future t.chan.future before s.ports.tTimeout.toNat (18 + t.txn.n.toNat)))

/-- A frame written whole is the answer of a full write. -/
theorem written_answer (legal : LegalOperands s.ports) (out : t.chan.out = s.chan.out ++ (exchangeFrame s).take (frameLength s.ports))
    (k : Nat) (full : WriteAnswer.count (exchangeFrame s).length = .count k) (frame : List Byte)
    (encoded : encodeFrame s.ports.tAddr s.ports.tFn (executePayload s) = .ok frame) :
    k = frame.length ∧ t.chan.out = s.chan.out ++ frame := by
  rw [encodeFrame_operands legal] at encoded
  cases encoded
  cases full
  exact ⟨rfl, by rw [out, take_exchangeFrame]⟩

section
variable {b : Standing} {cycles : List ChanCycle}

/-- The answers where the operands are refused. -/
theorem answered_refused {e : ErrorName} (valid : (Exchange.refused e).Valid s.ports) (result : t.result = some (.err e)) :
    Answered s t := by
  have refused := encodeFrame_refused valid
  have other : e ≠ .ioError ∧ e ≠ .responseTimeout := by
    rcases valid with ⟨-, rfl⟩ | ⟨-, -, rfl⟩ <;> decide
  refine ⟨.ioError, .timeout, .timeout, by rw [result]; simp [executeFunctional, refused], nofun, nofun, nofun,
    List.nil_prefix, fun io => ?_, fun timeout => ?_⟩
  · rw [result] at io
    cases io
    exact absurd rfl other.1
  · rw [result] at timeout
    cases timeout
    exact absurd rfl other.2

/-- The answers where the write fails. -/
theorem answered_writeError (legal : LegalOperands s.ports) (tracks : b.Tracks s.ports s.chan.future cycles)
    (error : (b.future.headD .quiet).txErr = true) (future : t.chan.future = b.future.tail)
    (result : t.result = some (.err .ioError)) : Answered s t := by
  refine ⟨.ioError, .timeout, .timeout, by rw [result]; simp [executeFunctional, encodeFrame_operands legal], nofun,
    nofun, nofun, List.nil_prefix, fun _ => ⟨_, ?_, fun _ => error, fun other => absurd rfl other⟩, fun timeout => ?_⟩
  · rw [future]
    exact lastCycle_of_noisy tracks ChanCycle.txErr rfl error
  · rw [result] at timeout
    cases timeout

/-- The answer of a header read that is complete. -/
theorem length_header {got : List Byte} (region : 18 ≤ got.length) (h : List Byte)
    (answer : ReadAnswer.bytes (got.take 18) = .bytes h) : h.length = 18 := by
  cases answer
  simp [region]

/-- The answers where the exchange ends in its first read or in T4: with `header` for an answer. -/
theorem answered_header (legal : LegalOperands s.ports) (header : ReadAnswer)
    (out : t.chan.out = s.chan.out ++ (exchangeFrame s).take (frameLength s.ports))
    (region : ∀ h, header = .bytes h → h.length = 18)
    (came : answerBytes header <+: arrivals (s.chan.future.drop 1))
    (result : t.result = some (executeFunctional s.ports.tAddr s.ports.tFn (executePayload s)
      (.count (exchangeFrame s).length) header .timeout))
    (io : t.result = some (.err .ioError) →
      ∃ c, LastCycle s.chan.future t.chan.future c ∧ c.rxErr = true)
    (timeout : t.result = some (.err .responseTimeout) →
      header = .timeout ∧ t.chan.inn = [] ∧ ∃ before, frameLength s.ports ≤ (before.filter ChanCycle.txReady).length ∧
        DeadlineMissed s.chan.future t.chan.future before s.ports.tTimeout.toNat 18) : Answered s t := by
  refine ⟨.count (exchangeFrame s).length, header, .timeout, result, written_answer legal out, region, nofun,
    by simpa [answerBytes] using came, fun failed => ?_, fun failed => ?_⟩
  · obtain ⟨c, last, error⟩ := io failed
    exact ⟨c, last, nofun, fun _ => error⟩
  · obtain ⟨none, nothing, before, sent, missed⟩ := timeout failed
    exact ⟨nothing, before, sent, fun _ => missed, fun other => absurd none other⟩

/-- The answers where the header is read, with a good length field. -/
theorem answered_payload {l : Len12} {got : List Byte} (second : ReadAnswer) (legal : LegalOperands s.ports)
    (region : 18 ≤ got.length) (length : headerLength got = .ok l) (n : t.txn.n = l)
    (out : t.chan.out = s.chan.out ++ (exchangeFrame s).take (frameLength s.ports))
    (payload : ∀ p, second = .bytes p → p.length = l.toNat)
    (came : got.take 18 ++ answerBytes second <+: arrivals (s.chan.future.drop 1))
    (result : t.result = some (executeTail (got.take 18) second))
    (io : t.result = some (.err .ioError) → ∃ c, LastCycle s.chan.future t.chan.future c ∧ c.rxErr = true)
    (timeout : t.result = some (.err .responseTimeout) →
      second = .timeout ∧ t.chan.inn = [] ∧ ∃ before, frameLength s.ports ≤ (before.filter ChanCycle.txReady).length ∧
        18 ≤ (arrivals (before.drop 1)).length ∧
        DeadlineMissed s.chan.future t.chan.future before s.ports.tTimeout.toNat (18 + l.toNat)) : Answered s t := by
  have header : headerLength (got.take 18) = .ok l := (headerLength_take region).trans length
  subst n
  refine ⟨.count (exchangeFrame s).length, .bytes (got.take 18), second, ?_, written_answer legal out,
    length_header region, payload, came, fun failed => ?_, fun failed => ?_⟩
  · rw [result]
    simp [executeFunctional, encodeFrame_operands legal, header]
  · obtain ⟨c, last, error⟩ := io failed
    exact ⟨c, last, nofun, fun _ => error⟩
  · obtain ⟨none, nothing, before, sent, came, missed⟩ := timeout failed
    exact ⟨nothing, before, sent, nofun, fun _ => ⟨none, came, missed⟩⟩

/-- A reply that is there whole is decoded, and `Decode` raises no error of the channel. -/
theorem result_decoded {l : Len12} {got : List Byte} {timer : BitVec 32} {inn : List Byte} {future : List ChanCycle} :
    (aheadState s future (.decoded l got timer inn)).result =
      some (executeTail (got.take 18) (.bytes (got.drop 18))) ∧
    executeTail (got.take 18) (.bytes (got.drop 18)) ≠ .err .ioError ∧
    executeTail (got.take 18) (.bytes (got.drop 18)) ≠ .err .responseTimeout := by
  simp only [executeTail, List.take_append_drop, aheadState]
  cases verdict : decodeFrame got with
  | ok reply pos => exact ⟨rfl, nofun, nofun⟩
  | err e pos =>
    refine ⟨rfl, ?_⟩
    rcases decodeFrame_err verdict with (rfl | rfl | rfl | rfl) | ⟨rfl, -⟩ <;> exact ⟨nofun, nofun⟩

/-- However an exchange ends, the channel's answers explain it. -/
theorem answered_of_endsBy {y : Ahead} (valid : b.exchange.Valid s.ports) (tracks : b.Tracks s.ports s.chan.future cycles)
    (ends : EndsBy s.ports (b.future.headD .quiet) (b.inn ++ (b.future.headD .quiet).arrive) b.exchange y) :
    Answered s (aheadState s b.future.tail y) := by
  have came := got_prefix tracks
  generalize hx : b.exchange = x at valid ends came
  cases ends with
  | refused e => exact answered_refused valid rfl
  | writeError error => exact answered_writeError valid.1 tracks error rfl rfl
  | @readError n got timer error =>
    have last := lastCycle_of_noisy tracks ChanCycle.rxErr rfl error
    cases n with
    | none =>
      exact answered_header valid.1 .ioError rfl nofun List.nil_prefix
        (by simp [executeFunctional, encodeFrame_operands valid.1]; rfl) (fun _ => ⟨_, last, error⟩) nofun
    | some l =>
      obtain ⟨legal, region, -, length⟩ := valid
      exact answered_payload .ioError legal region length rfl rfl nofun
        (by rw [answerBytes, List.append_nil]; exact (List.take_prefix 18 got).trans came) rfl
        (fun _ => ⟨_, last, error⟩) nofun
  | @timeout n got timer late few =>
    obtain ⟨before, sent, header, missed⟩ := deadlineMissed_of_tracks tracks hx late few
    cases n with
    | none =>
      exact answered_header valid.1 .timeout rfl nofun List.nil_prefix
        (by simp [executeFunctional, encodeFrame_operands valid.1]; rfl) nofun (fun _ => ⟨rfl, rfl, before, sent, missed⟩)
    | some l =>
      obtain ⟨legal, region, -, length⟩ := valid
      exact answered_payload .timeout legal region length rfl rfl nofun
        (by rw [answerBytes, List.append_nil]; exact (List.take_prefix 18 got).trans came) rfl nofun
        (fun _ => ⟨rfl, rfl, before, sent, header nofun, missed⟩)
  | @badLength got timer e read length =>
    have exactly : got.take 18 = got := List.take_of_length_le valid.2
    have other := headerLength_error length
    refine answered_header valid.1 (.bytes (got.take 18)) rfl (length_header read) ?_ ?_ ?_ ?_
    · exact (List.take_prefix 18 got).trans came
    · simp [executeFunctional, encodeFrame_operands valid.1, exactly, length]
      rfl
    · intro io
      cases io
      simp at other
    · intro timeout
      cases timeout
      simp at other
  | @reply l got timer read =>
    obtain ⟨legal, region, atMost, length⟩ := valid
    obtain ⟨result, notIo, notTimeout⟩ := result_decoded (s := s) (l := l) (got := got) (timer := timer)
      (inn := b.inn ++ (b.future.headD .quiet).arrive) (future := b.future.tail)
    refine answered_payload (.bytes (got.drop 18)) legal region length ?_ (out_aheadState _ _) ?_ ?_ result ?_ ?_
    · rw [aheadState]
      split <;> rfl
    · rintro p answer
      cases answer
      simp
      omega
    · rw [answerBytes, List.take_append_drop]
      exact came
    · intro io
      exact absurd (Option.some.inj (result.symm.trans io)) notIo
    · intro timeout
      exact absurd (Option.some.inj (result.symm.trans timeout)) notTimeout

end

/-- Settles O43: the run keeps what each cycle brought, and each way to end has the answers that explain it. -/
theorem executeAgreesWithFunction : Obligations.ExecuteAgreesWithFunction := by
  unfold Obligations.ExecuteAgreesWithFunction
  intro s t rest run ended
  obtain ⟨b, reaches, ⟨waiting, runs⟩ | ⟨ending, runs⟩⟩ := exists_execute s.ports s.chan.future
  · rw [runs s rest rfl rfl] at run
    cases run
    rw [busy_state] at ended
    cases ended
  · rw [runs s rest rfl rfl] at run
    cases run
    obtain ⟨cycles, tracks, valid⟩ := exists_tracks_of_reaches reaches
    exact answered_of_endsBy valid tracks (endsBy_next ending)

/-! ### The frame on the wire (R47, R55, R192) -/

/-- What an exchange has written: the frame from its first byte on, all of it before anything is read. -/
def WrittenInOrder (s t : State) (frame : List Byte) : Prop :=
  ∃ k ≤ frame.length, t.chan.out = s.chan.out ++ frame.take k ∧
    (t.txnEnc.phase = .done → k = frame.length) ∧
    (t.txn.state = .sent ∨ t.txn.state = .awaitingHeader ∨ t.txn.state = .awaitingPayload ∨ t.txn.state = .complete →
      t.txnEnc.phase = .done) ∧
    (t.txnEnc.phase ≠ .done →
      t.rxbuf = s.rxbuf ∧ t.txn.cnt = s.txn.cnt ∧
      ((k < frame.length ∧ t.txn.busy = true ∧ t.txn.state = .idle) ∨
       (t.result = some (.err .ioError) ∧ ∃ c, LastCycle s.chan.future t.chan.future c ∧ c.txErr = true)))

theorem phase_exchangeEnc_reading (n : Option Len12) (got : List Byte) (timer : BitVec 32) :
    (exchangeEnc s (.reading n got timer)).phase = .done := by
  have done := phase_encAfter_done s.ports.tAddr s.ports.tFn (executePayload s)
  rwa [length_executePayload] at done

theorem phase_exchangeEnc_writing {k : Nat} (valid : (Exchange.writing k).Valid s.ports) :
    (exchangeEnc s (.writing k)).phase = .emit :=
  phase_encAfter_emit _ _ (by rw [length_executePayload]; exact valid.2)

theorem writtenInOrder_of_done (out : t.chan.out = s.chan.out ++ (exchangeFrame s).take (frameLength s.ports))
    (done : t.txnEnc.phase = .done) : WrittenInOrder s t (exchangeFrame s) :=
  ⟨frameLength s.ports, (length_exchangeFrame s).ge, out, fun _ => (length_exchangeFrame s).symm, fun _ => done,
    fun other => absurd done other⟩

/-- An exchange that waits in its write has written a part of the frame, and one that reads all of it. -/
theorem writtenInOrder_state {b : Standing} (valid : b.exchange.Valid s.ports) (waiting : b.Waiting s.ports) :
    LegalOperands s.ports ∧ WrittenInOrder s (b.state s) (exchangeFrame s) := by
  obtain ⟨x, inn, future⟩ := b
  obtain ⟨-, waits⟩ := waiting
  cases x with
  | refused e => exact waits.elim
  | sent => exact waits.elim
  | writing k =>
    have emitting : (exchangeState s (.writing k) inn future).txnEnc.phase = .emit := phase_exchangeEnc_writing valid
    have more : k < (exchangeFrame s).length := by rw [length_exchangeFrame]; exact valid.2
    refine ⟨valid.1, k, more.le, rfl, fun done => ?_, nofun, fun _ => ⟨rfl, rfl, .inl ⟨more, rfl, rfl⟩⟩⟩
    exact absurd (emitting.symm.trans done) (by decide)
  | reading n got timer =>
    have legal : LegalOperands s.ports := by cases n <;> exact valid.1
    exact ⟨legal, writtenInOrder_of_done rfl (phase_exchangeEnc_reading n got timer)⟩

/-- However an exchange ends: refused with nothing written, in its write, or with all of the frame written. -/
theorem writtenInOrder_of_endsBy {b : Standing} {cycles : List ChanCycle} {y : Ahead} (valid : b.exchange.Valid s.ports)
    (tracks : b.Tracks s.ports s.chan.future cycles)
    (ends : EndsBy s.ports (b.future.headD .quiet) (b.inn ++ (b.future.headD .quiet).arrive) b.exchange y) :
    (∃ e, (Exchange.refused e).Valid s.ports ∧ y = .failed e (.refused e) (b.inn ++ (b.future.headD .quiet).arrive)) ∨
    (LegalOperands s.ports ∧ WrittenInOrder s (aheadState s b.future.tail y) (exchangeFrame s)) := by
  generalize b.exchange = x at valid ends
  cases ends with
  | refused e => exact .inl ⟨e, valid, rfl⟩
  | @writeError k error =>
    have atMost : (if (b.future.headD .quiet).txReady = true then k + 1 else k) ≤ (exchangeFrame s).length := by
      have := valid.2
      rw [length_exchangeFrame]
      split <;> omega
    refine .inr ⟨valid.1, _, atMost, rfl, nofun, nofun, fun _ => ⟨rfl, rfl, .inr ⟨rfl, _, ?_, error⟩⟩⟩
    exact lastCycle_of_noisy tracks ChanCycle.txErr rfl error
  | @readError n got timer error =>
    have legal : LegalOperands s.ports := by cases n <;> exact valid.1
    exact .inr ⟨legal, writtenInOrder_of_done rfl (phase_exchangeEnc_reading n got timer)⟩
  | @timeout n got timer late few =>
    have legal : LegalOperands s.ports := by cases n <;> exact valid.1
    exact .inr ⟨legal, writtenInOrder_of_done rfl (phase_exchangeEnc_reading n got timer)⟩
  | @badLength got timer e read length =>
    exact .inr ⟨valid.1, writtenInOrder_of_done rfl (phase_exchangeEnc_reading none got timer)⟩
  | @reply l got timer read =>
    refine .inr ⟨valid.1, writtenInOrder_of_done (out_aheadState _ _) ?_⟩
    have done := phase_exchangeEnc_reading (s := s) (some l) got timer
    rw [aheadState]
    split <;> exact done

/-- Settles O46: where the run ends or waits, the bytes written are those of its standing. -/
theorem executeWritesTheFrameInOrder : Obligations.ExecuteWritesTheFrameInOrder := by
  unfold Obligations.ExecuteWritesTheFrameInOrder
  intro s t rest run
  have legalCase (legal : LegalOperands s.ports) (written : WrittenInOrder s t (exchangeFrame s)) :
      (∀ e, encodeFrame s.ports.tAddr s.ports.tFn (executePayload s) = .err e →
        t.chan.out = s.chan.out ∧ t.result = some (.err e)) ∧
      ∀ frame, encodeFrame s.ports.tAddr s.ports.tFn (executePayload s) = .ok frame → WrittenInOrder s t frame := by
    rw [encodeFrame_operands legal]
    refine ⟨nofun, fun frame encoded => ?_⟩
    cases encoded
    exact written
  obtain ⟨b, reaches, ⟨waiting, runs⟩ | ⟨ending, runs⟩⟩ := exists_execute s.ports s.chan.future
  · rw [runs s rest rfl rfl] at run
    cases run
    obtain ⟨legal, written⟩ :=
      writtenInOrder_state (valid_of_reaches (valid_startExchange s.ports) reaches) waiting
    exact legalCase legal written
  · rw [runs s rest rfl rfl] at run
    cases run
    obtain ⟨cycles, tracks, valid⟩ := exists_tracks_of_reaches reaches
    rcases writtenInOrder_of_endsBy valid tracks (endsBy_next ending) with ⟨e, refused, next⟩ | ⟨legal, written⟩
    · rw [next, encodeFrame_refused refused]
      refine ⟨fun e' same => ?_, nofun⟩
      cases same
      exact ⟨List.append_nil _, rfl⟩
    · exact legalCase legal written

end

end Sys2Proof.Proofs
end

section
/-! PROOFS. `execute` on a channel whose cycles are known: a reply delivered at once, silence, and operands that are refused
(R190, R202, R206, R207; logs 8, 9, 10, 29). -/

namespace Sys2Proof.Proofs

open Sys2Proof Sys2Proof.Machine Sys2Proof.Safety Sys2Proof.Laws

section
variable {p : InPorts} {a b c : Standing} {s : State}

/-! ### Going through known cycles -/

/-- `a` goes on to `b` in `count` cycles. -/
inductive GoesIn (p : InPorts) : Nat → Standing → Standing → Prop
  | refl (a : Standing) : GoesIn p 0 a a
  | head {count : Nat} {a b c : Standing} (goes : a.Goes p b) (rest : GoesIn p count b c) : GoesIn p (count + 1) a c

theorem GoesIn.trans {m n : Nat} (first : GoesIn p m a b) (second : GoesIn p n b c) : GoesIn p (m + n) a c := by
  induction first with
  | refl a => rwa [Nat.zero_add]
  | @head count a b b' goes rest ih =>
    rw [Nat.add_right_comm]
    exact .head goes (ih second)

theorem GoesIn.single (goes : a.Goes p b) : GoesIn p 1 a b := .head goes (.refl b)

/-- Cycles that an exchange goes through may be left out of a run. -/
theorem txnRun_of_goesIn {count more : Nat} (valid : a.exchange.Valid s.ports) (goes : GoesIn s.ports count a b) :
    txnRun (count + more) (a.state s) = txnRun more (b.state s) := by
  induction goes with
  | refl a => rw [Nat.zero_add]
  | @head count a b c goes rest ih =>
    rw [Nat.add_right_comm, txnRun_succ_of_busy _ (busy_state a), txnCycle_of_goes valid goes,
      ih (valid_of_goes valid goes)]

/-- An `execute` that goes through `count` cycles and ends in the next one. -/
theorem exec_execute_of_goesIn {count : Nat} (rest : s.txn.busy = false) (valid : b.exchange.Valid s.ports)
    (goes : GoesIn s.ports count (startStanding s.ports s.chan.future) b) (ending : b.Ending s.ports)
    (enough : count < channelWork s.chan) :
    exec .execute s = .next (aheadState s b.future.tail (b.next s.ports)) := by
  obtain ⟨more, split⟩ := Nat.exists_eq_add_of_lt enough
  rw [exec_execute rest, split, Nat.add_assoc, txnRun_of_goesIn (valid_startExchange s.ports) goes,
    txnRun_succ_of_busy more (busy_state b), txnCycle_state valid, txnRun_of_rest more (busy_aheadState_of_ending ending _)]

/-- The write on a channel that takes a byte in every cycle. -/
theorem goesIn_write {j k : Nat} {inn : List Byte} {future : List ChanCycle} (bytes : k + (j + 1) = frameLength p) :
    GoesIn p (j + 1) ⟨.writing k, inn, List.replicate (j + 1) taking ++ future⟩ ⟨.sent, inn, future⟩ := by
  induction j generalizing k with
  | zero =>
    refine .single ⟨?_, rfl⟩
    have last : k + 1 = frameLength p := bytes
    simp [Standing.next, Exchange.ahead, taking, ChanCycle.quiet, last]
  | succ j ih =>
    have more : k + 1 ≠ frameLength p := by omega
    refine .head (b := ⟨.writing (k + 1), inn, List.replicate (j + 1) taking ++ future⟩) ⟨?_, rfl⟩ (ih (by omega))
    simp [Standing.next, Exchange.ahead, taking, ChanCycle.quiet, List.replicate_succ, more]

theorem goes_sent {inn : List Byte} (c : ChanCycle) (future : List ChanCycle) :
    (Standing.mk .sent inn (c :: future)).Goes p ⟨.reading none [] 0, inn ++ c.arrive, future⟩ := ⟨rfl, rfl⟩

/-- A read whose bytes are all there, on a channel that does nothing any more. -/
theorem goesIn_read {n : Option Len12} {got bytes rest : List Byte} {timer : BitVec 32}
    (room : got.length + bytes.length ≤ wanted n)
    (there : wanted n ≤ got.length + (bytes ++ rest).length) :
    GoesIn p bytes.length ⟨.reading n got timer, bytes ++ rest, []⟩ ⟨.reading n (got ++ bytes) timer, rest, []⟩ := by
  induction bytes generalizing got with
  | nil => rw [List.append_nil]; exact .refl _
  | cons b bytes ih =>
    simp only [List.length_cons, List.length_append, List.cons_append] at room there
    have goes : (Standing.mk (.reading n got timer) (b :: bytes ++ rest) []).Goes p
        ⟨.reading n (got ++ [b]) timer, bytes ++ rest, []⟩ := by
      have more : got.length < wanted n := by omega
      have whole : ¬(p.tTimeout ≤ timer ∧ got.length + (b :: bytes ++ rest).length < wanted n) := by
        rintro ⟨-, few⟩
        simp only [List.length_cons, List.length_append, List.cons_append] at few
        omega
      refine ⟨?_, rfl⟩
      have step : readAhead p .quiet n got timer (b :: bytes ++ rest) =
          .going (.reading n (got ++ [b]) timer) (bytes ++ rest) := by
        rw [readAhead, if_neg (by decide), if_neg whole]
        simp [ChanCycle.quiet]
      cases n with
      | none =>
        have more : got.length < 18 := more
        simpa [Standing.next, Exchange.ahead, ChanCycle.quiet, more] using step
      | some l =>
        have more : got.length < 18 + l.toNat := more
        simpa [Standing.next, Exchange.ahead, ChanCycle.quiet, more] using step
    have shifted : got ++ b :: bytes = got ++ [b] ++ bytes := by simp
    rw [shifted]
    exact .head goes (ih (by simp; omega) (by simp; omega))

/-- A read of a silent channel whose clock ticks. -/
theorem goesIn_ticking {j : Nat} {timer : BitVec 32} {future : List ChanCycle} (early : timer.toNat + j ≤ p.tTimeout.toNat) :
    GoesIn p j ⟨.reading none [] timer, [], List.replicate j ticking ++ future⟩
      ⟨.reading none [] (timer + BitVec.ofNat 32 j), [], future⟩ := by
  induction j generalizing timer with
  | zero => simpa using GoesIn.refl _
  | succ j ih =>
    have := p.tTimeout.isLt
    have inTime : ¬p.tTimeout ≤ timer := by bv_omega
    have below : timer.toNat < 4294967295 := by omega
    have next : (timer + 1).toNat = timer.toNat + 1 := by bv_omega
    have goes : (Standing.mk (.reading none [] timer) [] (List.replicate (j + 1) ticking ++ future)).Goes p
        ⟨.reading none [] (timer + 1), [], List.replicate j ticking ++ future⟩ := by
      refine ⟨?_, rfl⟩
      simp [Standing.next, Exchange.ahead, readAhead, ticking, ChanCycle.quiet, List.replicate_succ, inTime, wanted, below]
    have total : timer + BitVec.ofNat 32 (j + 1) = timer + 1 + BitVec.ofNat 32 j := by bv_omega
    rw [total]
    exact .head goes (ih (by omega))

/-! ### Without a reply (R191, R202, R206, R207) -/

theorem startExchange_refused {e : ErrorName} (valid : (Exchange.refused e).Valid p) : startExchange p = .refused e := by
  unfold startExchange
  rcases valid with ⟨bad, rfl⟩ | ⟨good, long, rfl⟩
  · rw [if_pos bad]
  · rw [if_neg (by omega), if_pos long]

theorem startExchange_legal (legal : LegalOperands p) : startExchange p = .writing 0 := by
  obtain ⟨address, length⟩ := legal
  rw [startExchange, if_neg (by omega), if_neg (by omega)]

/-- The write of an `execute` on a channel that takes a byte in every cycle after the start's. -/
theorem goesIn_start_sent {first : ChanCycle} {rest : List ChanCycle} (legal : LegalOperands p) :
    GoesIn p (frameLength p) (startStanding p (first :: (List.replicate (18 + 2 * p.tPlen.toNat) taking ++ rest)))
      ⟨.sent, [], rest⟩ := by
  have length : frameLength p = 17 + 2 * p.tPlen.toNat + 1 := by rw [frameLength]; omega
  have count : 18 + 2 * p.tPlen.toNat = 17 + 2 * p.tPlen.toNat + 1 := by omega
  rw [startStanding, startExchange_legal legal, List.tail_cons, length, count]
  exact goesIn_write (by omega)

/-- Settles O42: a start that is ignored, refused, or followed by silence. -/
theorem executeWithoutReply : Obligations.ExecuteWithoutReply := by
  unfold Obligations.ExecuteWithoutReply
  refine fun s => ⟨fun busy => if_pos busy, fun e rest refused => ?refused, fun first rest address length coming => ?silence⟩
  case refused =>
    have valid : (Exchange.refused e).Valid s.ports := refused
    have start := startExchange_refused valid
    have run := exec_execute_of_goesIn (b := ⟨.refused e, [], s.chan.future.tail⟩) rest valid
      (by rw [startStanding, start]; exact .refl _) nofun (by rw [channelWork]; omega)
    have inn : (s.chan.future.tail.headD .quiet).arrive =
        ((s.chan.future.drop 1).head?.map ChanCycle.arrive).getD [] := by
      rw [List.drop_one]
      cases s.chan.future.tail <;> rfl
    have future : s.chan.future.tail.tail = s.chan.future.drop 2 := by rw [← List.drop_one, ← List.drop_one, List.drop_drop]
    rw [run]
    simp only [Standing.next, Exchange.ahead, aheadState, List.nil_append, inn, future, exchangeState, Exchange.written,
      List.take_zero, List.append_nil]
    rfl
  case silence =>
    have legal : LegalOperands s.ports := ⟨address, length⟩
    have elapsed : 0 + BitVec.ofNat 32 s.ports.tTimeout.toNat = s.ports.tTimeout := by simp
    have ticks := goesIn_ticking (p := s.ports) (j := s.ports.tTimeout.toNat) (timer := 0) (future := [ChanCycle.quiet])
      (by simp)
    rw [elapsed] at ticks
    have goes : GoesIn s.ports (frameLength s.ports + (1 + s.ports.tTimeout.toNat))
        (startStanding s.ports s.chan.future) ⟨.reading none [] s.ports.tTimeout, [], [ChanCycle.quiet]⟩ := by
      rw [coming, List.append_assoc, List.append_assoc]
      exact (goesIn_start_sent legal).trans ((GoesIn.single (goes_sent _ _)).trans ticks)
    have times_out : (Standing.mk (.reading none [] s.ports.tTimeout) [] [ChanCycle.quiet]).next s.ports =
        .failed .responseTimeout (.reading none [] s.ports.tTimeout) [] := by
      simp [Standing.next, Exchange.ahead, readAhead, ChanCycle.quiet, wanted]
    have enough : frameLength s.ports + (1 + s.ports.tTimeout.toNat) < channelWork s.chan := by
      simp only [channelWork, coming, frameLength, List.length_cons, List.length_append, List.length_replicate,
        List.length_nil]
      omega
    have run := exec_execute_of_goesIn rest (b := ⟨.reading none [] s.ports.tTimeout, [], [ChanCycle.quiet]⟩)
      ⟨legal, Nat.zero_le 18⟩ goes (fun x inn => by rw [times_out]; nofun) enough
    refine ⟨exchangeFrame s, exchangeEnc s (.reading none [] s.ports.tTimeout), encodeFrame_operands legal, ?_⟩
    rw [run, times_out]
    simp only [aheadState, exchangeState, Exchange.written, take_exchangeFrame]
    rfl

/-! ### With a reply (R190, R193 to R198) -/

/-- T4 on a header region whose length field is good. -/
theorem headerLength_of_hexValues {h : List Byte} {w : Nat} (region : 13 ≤ h.length)
    (value : hexValues ((h.drop 9).take 4) = some w) (good : w / 4096 = nibbleCheck (w % 4096)) :
    headerLength h = .ok (BitVec.ofNat 12 w) := by
  have character (k : Nat) (hk : 9 + k < h.length) : h[9 + k]? = some h[9 + k] := List.getElem?_eq_getElem hk
  have c0 := character 0 (by omega)
  have c1 := character 1 (by omega)
  have c2 := character 2 (by omega)
  have c3 := character 3 (by omega)
  have chars : (h.drop 9).take 4 = [h[9 + 0], h[9 + 1], h[9 + 2], h[9 + 3]] := by
    simp [List.take_add_one, c0, c1, c2, c3]
  rw [chars, hexValues_four, Option.map_eq_some_iff] at value
  obtain ⟨x, word, rfl⟩ := value
  have passes : lengthFieldCheck x = some (BitVec.ofNat 12 x.toNat) := by rw [lengthFieldCheck_eq, if_pos good]
  simp only [Nat.reduceAdd] at c0 c1 c2 c3 word
  simp only [headerLength, c0, c1, c2, c3, Option.getD_some, word, passes]

/-- A reply delivered at once, once the frame is written, is read whole. -/
theorem goesIn_delivered {raw : List Byte} {l : Len12} (whole : raw.length = 18 + l.toNat)
    (length : headerLength (raw.take 18) = .ok l) :
    GoesIn p (1 + (18 + (1 + l.toNat))) ⟨.sent, [], [delivering raw]⟩ ⟨.reading (some l) raw 0, [], []⟩ := by
  have region : (raw.take 18).length = 18 := by simp; omega
  have payload : (raw.drop 18).length = l.toNat := by simp; omega
  have header := goesIn_read (p := p) (n := none) (got := []) (bytes := raw.take 18) (rest := raw.drop 18) (timer := 0)
    (by rw [region]; exact le_rfl) (by rw [List.take_append_drop]; change 18 ≤ 0 + raw.length; omega)
  have rest := goesIn_read (p := p) (n := some l) (got := raw.take 18) (bytes := raw.drop 18) (rest := []) (timer := 0)
    (by rw [region, payload]; exact le_rfl) (by rw [region, List.append_nil, payload]; exact le_rfl)
  rw [List.take_append_drop, region, List.nil_append] at header
  rw [List.take_append_drop, List.append_nil, payload] at rest
  have extracted : (Standing.mk (.reading none (raw.take 18) 0) (raw.drop 18) []).Goes p
      ⟨.reading (some l) (raw.take 18) 0, raw.drop 18, []⟩ := by
    refine ⟨?_, rfl⟩
    simp [Standing.next, Exchange.ahead, region, length, ChanCycle.quiet]
  exact (GoesIn.single (goes_sent _ _)).trans (header.trans ((GoesIn.single extracted).trans rest))

/-- T6 and T7 on a reply that `Decode` accepts. -/
theorem aheadState_decoded_ok {s : State} {future : List ChanCycle} {l : Len12} {got inn : List Byte} {timer : BitVec 32}
    {reply : Reply} {pos : Nat} (verdict : decodeFrame got = .ok reply pos) :
    aheadState s future (.decoded l got timer inn) =
      let t := (exchangeState s (.reading (some l) got timer) inn future).setTxnDec (decRun got (decStart s.txnDec)).1
      { t with
        txn := { t.txn with
          state := .complete
          busy := false
          status := reply.status
          rplen := BitVec.ofNat 11 reply.payload.length
          ver := reply.version
          radr := reply.address
          dev := reply.deviceType }
        result := some (.ok (.reply reply)) } := by
  simp only [aheadState, verdict]

/-- T6 on a reply that `Decode` refuses. -/
theorem aheadState_decoded_err {s : State} {future : List ChanCycle} {l : Len12} {got inn : List Byte} {timer : BitVec 32}
    {e : ErrorName} {pos : Nat} (verdict : decodeFrame got = .err e pos) :
    aheadState s future (.decoded l got timer inn) =
      txnFail e ((exchangeState s (.reading (some l) got timer) inn future).setTxnDec
        (decRun got (decStart s.txnDec)).1) := by
  simp only [aheadState, verdict]

/-- Settles O41: through the write, both reads and T4 to T6, cycle by cycle. -/
theorem executeReturnsTheReply : Obligations.ExecuteReturnsTheReply := by
  unfold Obligations.ExecuteReturnsTheReply
  intro s first raw n rest address plen coming whole bound value
  have legal : LegalOperands s.ports := ⟨address, plen⟩
  have nibble := nibbleCheck_lt n
  have word : (4096 * nibbleCheck n + n) / 4096 = nibbleCheck ((4096 * nibbleCheck n + n) % 4096) := by
    rw [show (4096 * nibbleCheck n + n) % 4096 = n by omega]
    omega
  have inRegion : ((raw.take 18).drop 9).take 4 = (raw.drop 9).take 4 := by
    rw [List.drop_take, List.take_take]; rfl
  obtain ⟨l, length, rfl⟩ : ∃ l : Len12, headerLength (raw.take 18) = .ok l ∧ l.toNat = n :=
    ⟨_, headerLength_of_hexValues (by simp; omega) (by rw [inRegion]; exact value) word, by
      rw [BitVec.toNat_ofNat]; omega⟩
  have goes : GoesIn s.ports (frameLength s.ports + (1 + (18 + (1 + l.toNat)))) (startStanding s.ports s.chan.future)
      ⟨.reading (some l) raw 0, [], []⟩ := by
    rw [coming]
    exact (goesIn_start_sent legal).trans (goesIn_delivered whole length)
  have headerOk : headerLength raw = .ok l := (headerLength_take (by omega)).symm.trans length
  have valid : (Exchange.reading (some l) raw 0).Valid s.ports := ⟨legal, by omega, by omega, headerOk⟩
  have decodes : (Standing.mk (.reading (some l) raw 0) [] []).next s.ports = .decoded l raw 0 [] := by
    rw [Standing.next, Exchange.ahead, if_neg (by omega)]
    rfl
  have enough : frameLength s.ports + (1 + (18 + (1 + l.toNat))) < channelWork s.chan := by
    simp only [channelWork, coming, frameLength, List.length_cons, List.length_append, List.length_replicate,
      List.length_nil, List.map_cons, List.map_append, List.sum_cons, List.sum_append, List.map_nil, List.sum_nil,
      delivering]
    omega
  have run := exec_execute_of_goesIn rest (b := ⟨.reading (some l) raw 0, [], []⟩) valid goes
    (fun x inn => by rw [decodes]; nofun) enough
  have count := cnt_reading (s := s) (n := some l) (got := raw) (timer := 0) (by have := l.isLt; omega)
  have reads := read_storedIn s.rxbuf (got := raw) (by have := l.isLt; omega)
  have decoded := runMatches_decodeFrame raw s.txnDec
  have done := phase_exchangeEnc_reading (s := s) (some l) raw 0
  refine ⟨exchangeFrame s, exchangeEnc s (.reading (some l) raw 0), (decRun raw (decStart s.txnDec)).1,
    storedIn s.rxbuf raw, (aheadState s [] (.decoded l raw 0 [])).txn, ?_⟩
  rw [run, decodes]
  cases verdict : decodeFrame raw with
  | ok reply pos =>
    rw [verdict] at decoded
    obtain ⟨⟨phase, err, stands, ver, adr, dev, fn, count', stored, above⟩, -⟩ := decoded
    have fits : reply.payload.length < 2048 := by rw [← count']; exact BitVec.isLt _
    refine ⟨.ok (.reply reply), encodeFrame_operands legal, ?_, reads, done, rfl, ?_⟩
    · simp only [aheadState_decoded_ok verdict, exchangeState, Exchange.written, take_exchangeFrame]
      rfl
    · rw [aheadState_decoded_ok verdict]
      refine ⟨rfl, rfl, rfl, rfl, rfl, rfl, count.trans whole, rfl, rfl, rfl, rfl, rfl, ?_, rfl, rfl, rfl, phase, stored⟩
      exact (BitVec.toNat_ofNat _ _).trans (Nat.mod_eq_of_lt fits)
  | err e pos =>
    rw [verdict] at decoded
    have raised : e ≠ .truncatedFrame := by
      rintro rfl
      exact decodeFrame_ne_truncated headerOk (by omega) verdict
    obtain ⟨d, failed, stands⟩ : ∃ d, (decRun raw (decStart s.txnDec)).1 = decFailed e d ∧ d.pos.toNat = pos := by
      change RunRefused e pos _ at decoded
      rwa [RunRefused, if_neg raised] at decoded
    refine ⟨.err e, encodeFrame_operands legal, ?_, reads, done, rfl, ?_⟩
    · simp only [aheadState_decoded_err verdict, exchangeState, Exchange.written, take_exchangeFrame]
      rfl
    · rw [failed]
      rw [aheadState_decoded_err verdict]
      exact ⟨rfl, rfl, rfl, rfl, rfl, rfl, count.trans whole, rfl, rfl, rfl, rfl, rfl, stands, read_nil, rfl, rfl, rfl, rfl,
        rfl⟩

end

end Sys2Proof.Proofs
end
